-- ==== Sys2Proof/Word.lean ====
section
/-! DEFINITION. The word types of the block: bytes of a MIDI message, and the two IEEE 754 interchange formats the
spec's real-valued registers (R8) and output samples (R43) have. Arithmetic is in Machine/Binary64.lean. -/

namespace Sys2Proof

/-- One byte of a MIDI message (R81). -/
abbrev Byte := BitVec 8

/-- An IEEE 754 binary64 value (R8), as its 64 interchange bits: bit 63 the sign, bits 62 to 52 the exponent field, bits
51 to 0 the fraction. Equality of this type is equality of the bits, not IEEE equality (`+0.0` and `-0.0` differ). -/
structure Binary64 where
  bits : BitVec 64
deriving DecidableEq, Repr, Inhabited

/-- An IEEE 754 binary32 value: an output sample (R43), which the block only forwards (R243). -/
structure Binary32 where
  bits : BitVec 32
deriving DecidableEq, Repr, Inhabited

end Sys2Proof
end

