-- ==== Sys2Proof/Config.lean ====
section
/-! DEFINITION. The implementation parameters of rule R6: the fixed ones as definitions, the open ones as opaque
constants with no body (nothing in Lean can prove a value of one). The parameters an instance is constructed with (R330)
are gathered in `Params`, plain data. -/

namespace Sys2Proof

/-- `NOTE_ON_POLICY` (R6, D12). -/
inductive NoteOnPolicy where
  | retrigger
  | rejectWhileSounding
deriving DecidableEq, Repr, Inhabited

/-- `VEL0_POLICY` (R6, D13). -/
inductive Vel0Policy where
  | asNoteOn
  | asNoteOff
deriving DecidableEq, Repr, Inhabited

/-- Which functions `F_SIN`, `F_POW` and `F_EXP` are (R6, D7): the reference definition, or any other total functions
on binary64. -/
inductive MathLibrary where
  | reference
  | other
deriving DecidableEq, Repr, Inhabited

/-- The configuration parameters an instance is constructed with (R6, R330) and never changes. DESIGN CHOICE: the model
carries them in its state as plain data; log entry 5. -/
structure Params where
  noteOnPolicy : NoteOnPolicy
  vel0Policy : Vel0Policy
  mathLibrary : MathLibrary
deriving DecidableEq, Repr, Inhabited

namespace Config

/-- `N_CH`: live channels (R6). -/
def liveChannels : Nat := 3

/-- `LFO_PERIOD` in samples (R6). -/
def lfoPeriod : Nat := 8192

/-- A quarter cycle of the LFO in samples (R6). -/
def lfoQuarter : Nat := 2048

/-- `PRESCALE` (R6). -/
def prescale : Nat := 16

/-- `REF_HZ`, the frequency at `refSemitone` (R6). -/
def refHz : Nat := 220

/-- The semitone number of `refHz` (R6). -/
def refSemitone : Nat := 45

/-- Which legal rate the host gave the instance that `State.reset` is (OPEN: D37). Free value; log entry 4. -/
opaque sampleRateChoice : Nat

/-- `SAMPLE_RATE` of that instance: free among the positive finite values, all that R6 and D37 allow, whose bits are 1 to the
largest finite value's. Log entry 4. -/
def sampleRate : Binary64 := ⟨BitVec.ofNat 64 (1 + sampleRateChoice % (2047 * 2 ^ 52 - 1))⟩

/-- `REMOVE_DC` of the instance that `State.reset` is (OPEN: D22). Free value; log entry 4. -/
opaque removeDc : Bool

/-- `VEL0_POLICY` of the instance that `State.reset` is (OPEN: D13). Free value; log entry 5. -/
opaque vel0Policy : Vel0Policy

/-- The library of the instance that `State.reset` is (I1: a parameter). Free value; log entry 6. -/
opaque mathLibrary : MathLibrary

/-- `F_SIN` of a library other than the reference, and of the reference outside the arguments it is computed for, before the
range of R201 and the model's two peak values (`Machine.fSin`). Free; log entries 6 and 7. -/
opaque otherSin : Binary64 → Binary64

/-- `F_POW`, likewise, before what R203 says of every library (`Machine.fPow`). Free; log entries 6 and 7. -/
opaque otherPow : Binary64 → Binary64 → Binary64

/-- `F_EXP`, likewise. Free; log entries 6 and 7. -/
opaque otherExp : Binary64 → Binary64

/-- The chip's answer to the `CFG` command that takes draw number k (I10: any value). Free value; log entry 3. -/
opaque cfgAnswer : Nat → Bool

/-- The chip's answer to the `RENDER` command that takes draw number k (I9: any value). Free value; log entry 3. -/
opaque renderAnswer : Nat → Binary32 × Binary32

/-- The tone period sent when the quotient of R203 is not a finite number or rounds below 0, for which no rule states
one. Free value, by the quotient; log entry 9. -/
opaque freePeriod : Binary64 → Nat

/-- How far above `p` the corrected envelope period lies when the floor of R169's real value is no integer at least `p`. Free
value, by that value; log entry 10. -/
opaque freeEnvExcess : Binary64 → Nat

/-- Bits of the NaN a binary64 operation answers where IEEE 754 asks for a NaN: the spec names no payload. Free; log
entry 8. -/
opaque nanFraction : Nat

end Config
end Sys2Proof
end

