-- ==== Sys2Proof/Machine/Binary64.lean ====
section
/-! DEFINITION. IEEE 754 binary64 arithmetic as rule R8 asks for it: each operation computed exactly and rounded once, to
nearest even, by `roundRatio`; and the exact roundings to integers, `RHU` and `floor`. -/

namespace Sys2Proof

/-- The exponent field, bits 62 to 52. -/
def Binary64.expField (x : Binary64) : Nat := x.bits.toNat / 2 ^ 52 % 2 ^ 11

/-- The fraction, bits 51 to 0. -/
def Binary64.fraction (x : Binary64) : Nat := x.bits.toNat % 2 ^ 52

/-- The sign bit. -/
def Binary64.isNeg (x : Binary64) : Bool := x.bits.msb

def Binary64.isFinite (x : Binary64) : Bool := x.expField != 2047

def Binary64.isNaN (x : Binary64) : Bool := x.expField == 2047 && x.fraction != 0

def Binary64.isInf (x : Binary64) : Bool := x.expField == 2047 && x.fraction == 0

/-- `x` is +0.0 or -0.0. -/
def Binary64.isZero (x : Binary64) : Bool := x.bits.toNat % 2 ^ 63 == 0

/-- `x` is finite and greater than 0. -/
def Binary64.isPositive (x : Binary64) : Bool := x.isFinite && !x.isNeg && !x.isZero

/-- The smallest positive binary64 is `2^-1074`, and every finite value is a whole number of these units: `2^1074` of them make 1. -/
def Binary64.unitsPerOne : Nat := 2 ^ 1074

/-- The magnitude of a finite `x` in units of `2^-1074`: the significand (with its hidden bit, unless subnormal) shifted by the
exponent. -/
def Binary64.units (x : Binary64) : Nat :=
  if x.expField = 0 then x.fraction else (x.fraction + 2 ^ 52) * 2 ^ (x.expField - 1)

/-- A finite `x` in units of `2^-1074`, with its sign. -/
def Binary64.signedUnits (x : Binary64) : Int := if x.isNeg then -(x.units : Int) else x.units

/-- A sign bit over a 63-bit magnitude field. -/
def Binary64.ofFields (neg : Bool) (magnitude : Nat) : Binary64 :=
  ⟨BitVec.ofNat 64 (if neg then 2 ^ 63 + magnitude else magnitude)⟩

def Binary64.zero (neg : Bool) : Binary64 := Binary64.ofFields neg 0

def Binary64.inf (neg : Bool) : Binary64 := Binary64.ofFields neg (2047 * 2 ^ 52)

/-- A NaN whose sign and payload no rule states (log entry 8): its fraction is never 0. -/
def Binary64.nan : Binary64 :=
  Binary64.ofFields (Config.nanFraction % 2 == 1) (2047 * 2 ^ 52 + (1 + Config.nanFraction / 2 % (2 ^ 52 - 1)))

def Binary64.neg (x : Binary64) : Binary64 := ⟨x.bits ^^^ BitVec.ofNat 64 (2 ^ 63)⟩

/-- The position of the highest 1 bit of an `n` from 1 to below `2 ^ 2 ^ k`, found by halving the range. -/
def Binary64.topBit : (k : Nat) → (n : Nat) → Nat
  | 0, _ => 0
  | k + 1, n => if 2 ^ 2 ^ k ≤ n then 2 ^ k + topBit k (n / 2 ^ 2 ^ k) else topBit k n

/-- `Nat.log2`, in few steps for a number of at most 8192 bits. -/
def Binary64.log2 (n : Nat) : Nat := if n < 2 ^ 8192 then topBit 13 n else n.log2

/-- The magnitude field of the non-negative real `num / den` (with `den > 0`) rounded to the nearest binary64 value, ties to
even; overflow gives the infinity's field. Here `2 ^ e`, the largest power of two at most `num / den`, has
`e = log2 num - log2 den` or one less, and `b = max (e + 1022) 0`, so that the values there are `2 ^ (b - 1074)` apart; `m` of
these, rounded, are then the field `m + b * 2 ^ 52`. -/
def Binary64.roundField (num den : Nat) : Nat :=
  if num = 0 then 0
  else
    let b :=
      if den * 2 ^ (log2 num - log2 den) ≤ num * 2 ^ (log2 den - log2 num) then log2 num + 1022 - log2 den
      else log2 num + 1021 - log2 den
    let n := num * 2 ^ (1074 - b)
    let d := den * 2 ^ (b - 1074)
    let m := if d < 2 * (n % d) ∨ (2 * (n % d) = d ∧ n / d % 2 = 1) then n / d + 1 else n / d
    min (m + b * 2 ^ 52) (2047 * 2 ^ 52)

/-- `fl` of R8: the real of the given sign and magnitude `num / den`, rounded once; it underflows through the subnormals to a
zero of that sign. -/
def Binary64.roundRatio (neg : Bool) (num den : Nat) : Binary64 := Binary64.ofFields neg (roundField num den)

/-- The binary64 value of an integer (R8: exact below 2^53). -/
def Binary64.ofInt (z : Int) : Binary64 := Binary64.roundRatio (z < 0) z.natAbs 1

/-- The binary64 value of the decimal literal `num / den`. -/
def Binary64.ofDecimal (num den : Nat) : Binary64 := Binary64.roundRatio false num den

/-- `fl(x + y)`. An exact zero sum is +0.0 unless both operands are -0.0. -/
def Binary64.add (x y : Binary64) : Binary64 :=
  if x.isNaN || y.isNaN then Binary64.nan
  else if x.isInf then (if y.isInf && x.isNeg != y.isNeg then Binary64.nan else x)
  else if y.isInf then y
  else
    let s := x.signedUnits + y.signedUnits
    if s = 0 then Binary64.zero (x.isNeg && y.isNeg)
    else Binary64.roundRatio (s < 0) s.natAbs unitsPerOne

/-- `fl(x - y)`. -/
def Binary64.sub (x y : Binary64) : Binary64 := x.add y.neg

/-- `fl(x * y)`. -/
def Binary64.mul (x y : Binary64) : Binary64 :=
  let neg := x.isNeg != y.isNeg
  if x.isNaN || y.isNaN then Binary64.nan
  else if x.isInf || y.isInf then (if x.isZero || y.isZero then Binary64.nan else Binary64.inf neg)
  else Binary64.roundRatio neg (x.units * y.units) (unitsPerOne * unitsPerOne)

/-- `fl(x / y)`. -/
def Binary64.div (x y : Binary64) : Binary64 :=
  let neg := x.isNeg != y.isNeg
  if x.isNaN || y.isNaN then Binary64.nan
  else if x.isInf then (if y.isInf then Binary64.nan else Binary64.inf neg)
  else if y.isInf then Binary64.zero neg
  else if y.isZero then (if x.isZero then Binary64.nan else Binary64.inf neg)
  else Binary64.roundRatio neg x.units y.units

/-- `x ≤ y` for finite `x` and `y`, on their real values. -/
def Binary64.le (x y : Binary64) : Bool := x.isFinite && y.isFinite && decide (x.signedUnits ≤ y.signedUnits)

/-- `floor(x)` of R8, on the exact real value; none when `x` is not finite. -/
def Binary64.floor (x : Binary64) : Option Int :=
  if x.isFinite then some (x.signedUnits / (unitsPerOne : Int)) else none

/-- `RHU(x)` of R8: `floor(x + 1/2)` on the exact real value; none when `x` is not finite. -/
def Binary64.rhu (x : Binary64) : Option Int :=
  if x.isFinite then some ((2 * x.signedUnits + (unitsPerOne : Int)) / ((2 * unitsPerOne : Nat) : Int)) else none

end Sys2Proof
end

