-- ==== Sys2Proof/Syntax.lean ====
section
/-! DEFINITION. The syntax of the block's input: property values, payloads and events (R80, R81, R91), and the one
inductive `Instr`, with one constructor per row of spec/opcode_table.json, in the table's order. -/

namespace Sys2Proof

/-- The tagged value of a property record (R91): binary64, int32 (two's complement) or Boolean. -/
inductive PropValue where
  | real (x : Binary64)
  | int (v : BitVec 32)
  | bool (b : Bool)
deriving DecidableEq, Repr, Inhabited

/-- The payload of an event (R80): the bytes of one MIDI message (R81), or a property record (R91). -/
inductive Payload where
  | midi (bytes : List Byte)
  | prop (key chan : Byte) (value : PropValue)
deriving DecidableEq, Repr, Inhabited

/-- An event record (R80): its frame offset in the block, and its payload (whose variant is the record's `kind`). -/
structure Event where
  offset : BitVec 32
  payload : Payload
deriving DecidableEq, Repr, Inhabited

/-- The instructions: the events of the block, and its four internal operations (R93). A MIDI channel operand is the
status byte's low nibble, 0 to 15 (R82); data bytes are 7 bits (R84). A property keeps its record's `chan` and tagged
value as they came: which of them are legal is part of its meaning (R247). -/
inductive Instr where
  | noteOff (c : BitVec 4) (n v : BitVec 7)
  | noteOnVel0 (c : BitVec 4) (n : BitVec 7)
  | noteOn (c : BitVec 4) (n v : BitVec 7)
  | polyAftertouch (c : BitVec 4) (n p : BitVec 7)
  | ccModWheel (c : BitVec 4) (v : BitVec 7)
  | ccMainVolume (c : BitVec 4) (v : BitVec 7)
  | ccPan (c : BitVec 4) (v : BitVec 7)
  | ccGp1Noise (c : BitVec 4) (v : BitVec 7)
  | ccGp2EnvCoarse (c : BitVec 4) (v : BitVec 7)
  | ccGp3EnvFine (c : BitVec 4) (v : BitVec 7)
  | ccGp4EnvShape (c : BitVec 4) (v : BitVec 7)
  | ccAllSoundOff (c : BitVec 4) (v : BitVec 7)
  | ccResetControllers (c : BitVec 4) (v : BitVec 7)
  | ccAllNotesOff (c : BitVec 4) (v : BitVec 7)
  | ccOther (c : BitVec 4) (k v : BitVec 7)
  | programChange (c : BitVec 4) (p : BitVec 7)
  | channelPressure (c : BitVec 4) (p : BitVec 7)
  | pitchBend (c : BitVec 4) (lsb msb : BitVec 7)
  | systemReset
  | systemOther (status : BitVec 4) (data : List Byte)
  | propClock (chan : Byte) (value : PropValue)
  | propMode (chan : Byte) (value : PropValue)
  | propNoisePeriod (chan : Byte) (value : PropValue)
  | propEnvPeriod (chan : Byte) (value : PropValue)
  | propEnvHold (chan : Byte) (value : PropValue)
  | propEnvAlternate (chan : Byte) (value : PropValue)
  | propEnvAttack (chan : Byte) (value : PropValue)
  | propEnvContinue (chan : Byte) (value : PropValue)
  | propTonePeriod (chan : Byte) (value : PropValue)
  | propLevel (chan : Byte) (value : PropValue)
  | propEnvOn (chan : Byte) (value : PropValue)
  | propToneOn (chan : Byte) (value : PropValue)
  | propNoiseOn (chan : Byte) (value : PropValue)
  | propUnknown (key chan : Byte) (value : PropValue)
  | block (n : BitVec 32) (events : List Event)
  | renderStep
  | modTick
  | construct (cap : Bool) (sampleRate : Binary64) (removeDc : Bool) (params : Params)
deriving DecidableEq, Repr, Inhabited

/-- True of the instructions that are events; false of the internal operations, which have no encoding (R93). -/
def Instr.isEvent : Instr → Bool
  | .block _ _ => false
  | .renderStep => false
  | .modTick => false
  | .construct _ _ _ _ => false
  | _ => true

/-- What the host starts (R93): a construction, or a block transaction. -/
inductive HostCall where
  | construct (cap : Bool) (sampleRate : Binary64) (removeDc : Bool) (params : Params)
  | block (n : BitVec 32) (events : List Event)
deriving DecidableEq, Repr, Inhabited

end Sys2Proof
end

