-- ==== Sys2Proof/Machine/State.lean ====
section
/-! DEFINITION. The architectural state of one block as plain data (R20 to R46), the fields the model adds to make it a
machine, the state after power-on, and the reasons a step can stop. -/

namespace Sys2Proof.Machine

/-- `MODE` (R23): 0 is AY, 1 is YM. -/
inductive ChipMode where
  | ay
  | ym
deriving DecidableEq, Repr, Inhabited

/-- The law bit of a `PAN` command (R165, R310): `LINEAR` = 0, `EQUAL_POWER` = 1. -/
inductive PanLaw where
  | linear
  | equalPower
deriving DecidableEq, Repr, Inhabited

/-- The chip commands with their arguments and, for `CFG` and `RENDER`, their answers (R310, R44). Periods and levels are
integers of any size: the block narrows none (D36). -/
inductive ChipCmd where
  | cfg (mode : ChipMode) (clockHz sampleRate : Binary64) (ok : Bool)
  | tone (c : Fin 3) (period : Nat)
  | mixer (c : Fin 3) (tone noise : Bool)
  | vol (c : Fin 3) (level : Nat)
  | envOn (c : Fin 3) (on : Bool)
  | pan (c : Fin 3) (value : Binary64) (law : PanLaw)
  | noise (period : Nat)
  | envPer (period : Nat)
  | shape (shape : BitVec 4)
  | render (dc : Bool) (left right : Binary32)
deriving DecidableEq, Repr, Inhabited

/-- One entry of the channel register file (R31, R34 to R41). -/
structure Channel where
  /-- `NOTE`, -1 to 127; -1 means no active note (R34). -/
  note : Int
  /-- `VEL` (R35). -/
  vel : BitVec 7
  /-- `VOLUME` (R36). -/
  volume : BitVec 4
  /-- `ENV_ON` (R37). -/
  envOn : Bool
  /-- `BEND` in semitones (R38). -/
  bend : Binary64
  /-- `DEPTH` in semitones (R39). -/
  depth : Binary64
  /-- `TONE_EN` (R40). -/
  toneEn : Bool
  /-- `NOISE_EN` (R40). -/
  noiseEn : Bool
  /-- `PAN` (R41). -/
  pan : Binary64
deriving DecidableEq, Repr, Inhabited

/-- A channel at power-on: "created zeroed" (R46), so its note is 0. -/
def Channel.powerOn : Channel where
  note := 0
  vel := 0
  volume := 0
  envOn := false
  bend := ⟨0#64⟩
  depth := ⟨0#64⟩
  toneEn := false
  noiseEn := false
  pan := ⟨0#64⟩

/-- The state. The first group of fields is the spec's (R20); the second group is the model's own. -/
structure State where
  /-- `CLOCK_HZ` (R21). -/
  clockHz : Binary64
  /-- `SAMPLE_RATE` (R22). -/
  sampleRate : Binary64
  /-- `MODE` (R23). -/
  mode : ChipMode
  /-- `REMOVE_DC` (R24). -/
  removeDc : Bool
  /-- `NOISE_PERIOD`, below 2^31 (R25). -/
  noisePeriod : Nat
  /-- `ENV_PERIOD` (R26). -/
  envPeriod : BitVec 16
  /-- `ENV_SHAPE` (R27). -/
  envShape : BitVec 4
  /-- `SAMPLE_CTR` (R28). -/
  sampleCtr : BitVec 32
  /-- `CFG_INVALID` (R29). -/
  cfgInvalid : Bool
  /-- `FAULT` (R30). -/
  fault : Bool
  /-- `ch[0..2]` (R31). -/
  ch : Vector Channel 3
  /-- `N`, the frame count of the current block (R42). -/
  frames : BitVec 32
  /-- `CURSOR`, the next frame to render (R42). It never wraps, so it is a natural number. -/
  cursor : Nat
  /-- `EV_IDX`, the index of the next event to apply (R42). -/
  evIdx : Nat
  /-- `OUT_L[0..N-1]` (R43): none for a frame that this block has not written yet (log entry 13). -/
  outL : List (Option Binary32)
  /-- `OUT_R[0..N-1]` (R43). -/
  outR : List (Option Binary32)
  /-- `CHIP_TRACE`, oldest command first (R44). -/
  chipTrace : List ChipCmd
  /-- Model: the event sequence of the block transaction in progress, its input `E` (R240). -/
  events : List Event
  /-- Model: the calls the host has pending (R93). -/
  calls : List HostCall
  /-- Model: the configuration parameters of this construction (R6, R330). -/
  params : Params
  /-- Model: chip answers to the coming `CFG` commands, where supplied (R310). -/
  cfgAnswers : List Bool
  /-- Model: chip answers to the coming `RENDER` commands, where supplied (R310). -/
  renderAnswers : List (Binary32 × Binary32)
  /-- Model: how many chip answers have been drawn; numbers the free ones. -/
  draws : Nat
  /-- Model: the event index that `fault HostContract` reports (R241). -/
  faultIndex : Nat
deriving DecidableEq, Repr, Inhabited

/-- Why the machine stops with a fault. -/
inductive Fault where
  /-- The host broke the input contract: event `index` of a block has an offset of `N` or more (R241, R304). Raised by
  `BLOCK` and by the step in a state whose `FAULT` is 1, which is final. Safe: the spec gives that state no step. -/
  | hostContract (index : Nat)
  /-- A render step at a `CURSOR` that is not below `N` would write past the output buffers, "which the source never
  defines" (R241). Raised by `RENDER_STEP`. Safe: the spec gives no effect there and no block asks for it (R242). -/
  | outsideBuffer
deriving DecidableEq, Repr, Inhabited

/-- Why the machine gives an instruction no meaning. -/
inductive Refusal where
  /-- The instruction with this mnemonic has no meaning in the model yet. Raised by `exec` alone. Safe. -/
  | notModelled (mnemonic : String)
  /-- `CONSTRUCT` without the event-to-frame mapping capability: no state exists after it (R303, R331, I16). Raised by
  `CONSTRUCT`. Safe: it is the spec's own outcome. -/
  | hostCapabilityMissing
deriving DecidableEq, Repr, Inhabited

/-- The state after power-on with the given parameters (R330, R46), where the chip answers `ok` to the construction `CFG`;
`calls`, the answer queues and the draw counter are the host's and are passed through. -/
def State.constructed (sampleRate : Binary64) (removeDc : Bool) (params : Params) (ok : Bool) (calls : List HostCall)
    (cfgAnswers : List Bool) (renderAnswers : List (Binary32 × Binary32)) (draws : Nat) : State where
  clockHz := ⟨0x413E848000000000#64⟩
  sampleRate := sampleRate
  mode := .ay
  removeDc := removeDc
  noisePeriod := 0
  envPeriod := 0
  envShape := 0
  sampleCtr := 0
  cfgInvalid := !ok
  fault := false
  ch := #v[Channel.powerOn, Channel.powerOn, Channel.powerOn]
  frames := 0
  cursor := 0
  evIdx := 0
  outL := []
  outR := []
  chipTrace := [.cfg .ay ⟨0x413E848000000000#64⟩ sampleRate ok]
  events := []
  calls := calls
  params := params
  cfgAnswers := cfgAnswers
  renderAnswers := renderAnswers
  draws := draws
  faultIndex := 0

/-- The machine right after power-on (R46): `CONSTRUCT` has run with the host's parameters, its `CFG` has taken chip answer
number 0, and the host has no call pending. `NOTE_ON_POLICY` is at the default R6 gives it; the OPEN parameters are free
values (log entries 3, 4, 5, 6, 12). -/
def State.reset : State :=
  State.constructed Config.sampleRate Config.removeDc
    { noteOnPolicy := .retrigger, vel0Policy := Config.vel0Policy, mathLibrary := Config.mathLibrary }
    (Config.cfgAnswer 0) [] [] [] 1

end Sys2Proof.Machine
end

