-- ==== Sys2Proof/Machine/Ops.lean ====
section
/-! DEFINITION. The named operations over the state: the channel register file, chip commands and their answers, the output
buffers, and the host-contract fault. Every meaning reads and writes through these. -/

namespace Sys2Proof.Machine

/-- The three-way answer of a meaning. -/
abbrev Result := Host.Outcome State Fault Refusal

/-- Go on with `f` from the next state; a fault or a refusal ends there. -/
def andThen (r : Result) (f : State → Result) : Result :=
  match r with
  | .next s => f s
  | .fault why => .fault why
  | .refused why => .refused why

/-! ### The channel register file (R31) -/

/-- `ch[c]`. -/
def State.chan (s : State) (c : Fin 3) : Channel := s.ch[c]

/-- `ch[c] <- x`. -/
def State.setChan (s : State) (c : Fin 3) (x : Channel) : State := { s with ch := s.ch.set c x }

/-! ### Chip commands (R9, R310) -/

/-- `Emit` of a command without an answer: one command appended to `CHIP_TRACE` (R9, R44). -/
def State.emit (s : State) (cmd : ChipCmd) : State := { s with chipTrace := s.chipTrace ++ [cmd] }

/-- The chip's answer to the next `CFG`: the next supplied one, or else a free value (R283, I10; log entry 3). -/
def State.cfgOk (s : State) : Bool :=
  match s.cfgAnswers with
  | ok :: _ => ok
  | [] => Config.cfgAnswer s.draws

/-- `ok <- Emit(CFG(MODE, CLOCK_HZ, SAMPLE_RATE)); CFG_INVALID <- not ok` (R280, R330, R29). -/
def State.emitCfg (s : State) : State :=
  { s with
    chipTrace := s.chipTrace ++ [.cfg s.mode s.clockHz s.sampleRate s.cfgOk]
    cfgInvalid := !s.cfgOk
    cfgAnswers := s.cfgAnswers.tail
    draws := s.draws + 1 }

/-- The chip's answer to the next `RENDER`: the next supplied pair, or else a free value (R243, I9; log entry 3). -/
def State.samplePair (s : State) : Binary32 × Binary32 :=
  match s.renderAnswers with
  | pair :: _ => pair
  | [] => Config.renderAnswer s.draws

/-- `(l, r) <- Emit(RENDER(REMOVE_DC))` (R243): the command recorded with its answer, which `samplePair` gives. -/
def State.emitRender (s : State) : State :=
  { s with
    chipTrace := s.chipTrace ++ [.render s.removeDc s.samplePair.1 s.samplePair.2]
    renderAnswers := s.renderAnswers.tail
    draws := s.draws + 1 }

/-- `OutWrite(i, l, r)` (R9, R43): frame `i` of both output buffers. -/
def State.outWrite (s : State) (i : Nat) (l r : Binary32) : State :=
  { s with outL := s.outL.set i (some l), outR := s.outR.set i (some r) }

/-! ### The event index (R42) -/

/-- `EV_IDX <- EV_IDX + 1` (R242, R244). -/
def State.advance (s : State) : State := { s with evIdx := s.evIdx + 1 }

/-! ### The host-contract fault (R241, R304)

The block has no trap entry and no trap return (R307); this is the one thing the spec has that ends a run. -/

/-- The index of the first event whose offset is `n` or more (R241). -/
def firstBeyond (n : BitVec 32) (events : List Event) : Option Nat :=
  events.findIdx? (fun e => n.toNat ≤ e.offset.toNat)

/-- `FAULT <- 1; fault HostContract(j)` (R241): no event is applied and no frame is rendered. From here every step answers
the fault (log entry 15). -/
def State.takeHostContract (s : State) (j : Nat) : State := { s with fault := true, faultIndex := j }

end Sys2Proof.Machine
end

