-- ==== Sys2Proof/Machine/Flags.lean ====
section
/-! DEFINITION. The predicates and derived values that meanings read. The block has no condition flags (R33): `SOUNDING` is the
one predicate, and the status bits `CFG_INVALID` and `FAULT` are written by `emitCfg` and `takeHostContract` alone. -/

namespace Sys2Proof.Machine

/-- `SOUNDING` of a channel entry: `NOTE != -1` (R32). -/
def Channel.sounding (x : Channel) : Bool := x.note != -1

/-- `SOUNDING(c)` (R32). -/
def State.sounding (s : State) (c : Fin 3) : Bool := (s.chan c).sounding

/-- The gate of the per-sample tone update: `SOUNDING(c) and DEPTH != 0` (R207, C7). The comparison is of values, so both
zeros count as 0 (R8). -/
def State.modulated (s : State) (c : Fin 3) : Bool := s.sounding c && !(s.chan c).depth.isZero

/-- `LEVEL(vol, vel)`, the source form: `RHU(fl(fl(vol * vel) / 127.0))` (R121). The quotient is finite and not negative, so
the two defaults below stand for no case. -/
def level (volume : BitVec 4) (velocity : BitVec 7) : Nat :=
  ((((Binary64.ofInt (volume.toNat * velocity.toNat)).div (Binary64.ofInt 127)).rhu).getD 0).toNat

/-- `ENV_SHAPE[i] <- b` (R252 to R255; bit positions R27). -/
def setShapeBit (shape : BitVec 4) (i : Nat) (b : Bool) : BitVec 4 :=
  if b then shape ||| (1#4 <<< i) else shape &&& ~~~(1#4 <<< i)

end Sys2Proof.Machine
end

