-- ==== Sys2Proof/Machine/Bytes.lean ====
section
/-! DEFINITION. The bytes of a MIDI message after its status byte: data bytes, and how many a system status takes (R84,
R85). -/

namespace Sys2Proof

/-- A data byte has bit 7 clear (R81, R84). -/
def isDataByte (b : Byte) : Bool := !b.msb

/-- The bytes after a system exclusive status: data bytes up to an optional final 0xF7 (R85; log entry 18). -/
def isSysexData : List Byte → Bool
  | [] => true
  | [b] => isDataByte b || b == 0xF7#8
  | b :: rest => isDataByte b && isSysexData rest

/-- How many data bytes follow a system status 0xF0 + `s` (R85); none for system exclusive, whose length varies. -/
def systemDataLength (s : BitVec 4) : Option Nat :=
  if s = 0x0 then none
  else if s = 0x1 ∨ s = 0x3 then some 1
  else if s = 0x2 then some 2
  else some 0

/-- The data of a complete system message with status 0xF0 + `s` (R84, R85). -/
def isSystemData (s : BitVec 4) (data : List Byte) : Bool :=
  match systemDataLength s with
  | none => isSysexData data
  | some k => data.length == k && data.all isDataByte

end Sys2Proof
end

