-- ==== Sys2Proof/WellFormed.lean ====
section
/-! DEFINITION. Which terms of `Instr` stand for an input the spec has: the operand values that the opcode table gives to
another row, and the operands a rule restricts. Ill-formed terms are never decoded. -/

namespace Sys2Proof

/-- The controller numbers that have a row of their own (R87). -/
def mappedControllers : List Nat := [1, 7, 10, 16, 17, 18, 19, 120, 121, 123]

/-- The key identifiers that have a row of their own (R90). -/
def mappedKeys : List Nat := [0x01, 0x02, 0x03, 0x04, 0x05, 0x06, 0x07, 0x08, 0x10, 0x11, 0x12, 0x13, 0x14]

/-- The well-formed instructions. A sample rate is a positive finite binary64 (R22, D37). -/
def Instr.wellFormed : Instr → Bool
  | .noteOn _ _ v => v != 0#7
  | .ccOther _ k _ => !mappedControllers.contains k.toNat
  | .systemOther s data => s != 0xF#4 && isSystemData s data
  | .propUnknown key _ _ => !mappedKeys.contains key.toNat
  | .construct _ sampleRate _ _ => sampleRate.isPositive
  | _ => true

end Sys2Proof
end

