-- ==== Sys2Proof/Decode.lean ====
section
/-! DEFINITION. Decoding: from the payload of an event to the instruction it is, or to a rejection by name (R81 to R92); and
the encoder, written from the same tables. The opcode table's packing of a payload in one number is at the end. -/

namespace Sys2Proof

/-- Why a MIDI payload is malformed (R84, R85, D29). Each constructor is raised by `decodeMidi` alone. Safe: the step that
meets one ignores the event, as R244 says, and no effect is left out. -/
inductive DecodeError where
  /-- No byte at all: there is no status byte to fix a length (R81). -/
  | noStatus
  /-- The first byte has bit 7 clear: running status (R85). -/
  | runningStatus
  /-- The byte count does not match the status byte's length (R85). -/
  | wrongLength
  /-- A data byte has bit 7 set (R84). -/
  | badDataByte
deriving DecidableEq, Repr

/-- What decoding answers. -/
inductive Decoded where
  | instr (i : Instr)
  | malformed (why : DecodeError)
deriving DecidableEq, Repr

/-- The message type of a status byte, `b0[7:4]` (R82). -/
def messageType (b0 : Byte) : Nat := b0.toNat / 16

/-- The low nibble of a status byte: the channel of a channel message (R82), the kind of a system message. -/
def lowNibble (b0 : Byte) : BitVec 4 := b0.setWidth 4

/-- The 7-bit value of a data byte (R84). -/
def dataValue (b : Byte) : BitVec 7 := b.setWidth 7

/-- Data byte `i` of a message, 0 where there is none. -/
def dataAt (data : List Byte) (i : Nat) : BitVec 7 := dataValue (data[i]?.getD 0#8)

/-- Whether the bytes after status `b0` are as many as its length asks for (R85). -/
def lengthMatches (b0 : Byte) (data : List Byte) : Bool :=
  match messageType b0 with
  | 0xC => data.length == 1
  | 0xD => data.length == 1
  | 0xF =>
    match systemDataLength (lowNibble b0) with
    | none => true
    | some k => data.length == k
  | _ => data.length == 2

/-- Whether the bytes after status `b0` are data bytes; a system exclusive message may end in 0xF7 (R85). -/
def dataBytesOk (b0 : Byte) (data : List Byte) : Bool :=
  if b0 = 0xF0#8 then isSysexData data else data.all isDataByte

/-- The controller map (R87). -/
def decodeController (c : BitVec 4) (k v : BitVec 7) : Instr :=
  match k.toNat with
  | 1 => .ccModWheel c v
  | 7 => .ccMainVolume c v
  | 10 => .ccPan c v
  | 16 => .ccGp1Noise c v
  | 17 => .ccGp2EnvCoarse c v
  | 18 => .ccGp3EnvFine c v
  | 19 => .ccGp4EnvShape c v
  | 120 => .ccAllSoundOff c v
  | 121 => .ccResetControllers c v
  | 123 => .ccAllNotesOff c v
  | _ => .ccOther c k v

/-- The MIDI opcode map (R86), for a complete message. A note-on with velocity 0 is the table's row `NOTE_ON_VEL0`, which
"takes priority over NOTE_ON" (R88). -/
def decodeMessage (b0 : Byte) (data : List Byte) : Instr :=
  let c := lowNibble b0
  let d1 := dataAt data 0
  let d2 := dataAt data 1
  match messageType b0 with
  | 0x8 => .noteOff c d1 d2
  | 0x9 => if d2 = 0#7 then .noteOnVel0 c d1 else .noteOn c d1 d2
  | 0xA => .polyAftertouch c d1 d2
  | 0xB => decodeController c d1 d2
  | 0xC => .programChange c d1
  | 0xD => .channelPressure c d1
  | 0xE => .pitchBend c d1 d2
  | _ => if b0 = 0xFF#8 then .systemReset else .systemOther c data

/-- Decode a MIDI payload (R81 to R88). The channel gate of R83 is not applied here: a message for channel 3 to 15 decodes
to its instruction, whose meaning ignores it (log entry 21). -/
def decodeMidi : List Byte → Decoded
  | [] => .malformed .noStatus
  | b0 :: data =>
    if isDataByte b0 then .malformed .runningStatus
    else if !lengthMatches b0 data then .malformed .wrongLength
    else if !dataBytesOk b0 data then .malformed .badDataByte
    else .instr (decodeMessage b0 data)

/-- Decode a property record by its key alone (R90, R91). -/
def decodeProp (key chan : Byte) (value : PropValue) : Instr :=
  match key.toNat with
  | 0x01 => .propClock chan value
  | 0x02 => .propMode chan value
  | 0x03 => .propNoisePeriod chan value
  | 0x04 => .propEnvPeriod chan value
  | 0x05 => .propEnvHold chan value
  | 0x06 => .propEnvAlternate chan value
  | 0x07 => .propEnvAttack chan value
  | 0x08 => .propEnvContinue chan value
  | 0x10 => .propTonePeriod chan value
  | 0x11 => .propLevel chan value
  | 0x12 => .propEnvOn chan value
  | 0x13 => .propToneOn chan value
  | 0x14 => .propNoiseOn chan value
  | _ => .propUnknown key chan value

/-- Decode the payload of an event (R244). -/
def decode : Payload → Decoded
  | .midi bytes => decodeMidi bytes
  | .prop key chan value => .instr (decodeProp key chan value)

/-! ### The encoder -/

/-- A channel message's status byte: type nibble, channel nibble (R82). -/
def statusByte (type c : BitVec 4) : Byte := type ++ c

/-- A data byte: bit 7 clear (R81). -/
def dataByte (v : BitVec 7) : Byte := 0#1 ++ v

/-- A three-byte message (format `MIDI3`, R81). -/
def midi3 (type c : BitVec 4) (d1 d2 : BitVec 7) : Payload :=
  .midi [statusByte type c, dataByte d1, dataByte d2]

/-- A two-byte message (format `MIDI2`, R81). -/
def midi2 (type c : BitVec 4) (d1 : BitVec 7) : Payload := .midi [statusByte type c, dataByte d1]

/-- A control change (R87). -/
def controlChange (c : BitVec 4) (k : Nat) (v : BitVec 7) : Payload := midi3 0xB#4 c (BitVec.ofNat 7 k) v

/-- The payload of an event instruction; none for the internal operations (R93). -/
def encode : Instr → Option Payload
  | .noteOff c n v => some (midi3 0x8#4 c n v)
  | .noteOnVel0 c n => some (midi3 0x9#4 c n 0#7)
  | .noteOn c n v => some (midi3 0x9#4 c n v)
  | .polyAftertouch c n p => some (midi3 0xA#4 c n p)
  | .ccModWheel c v => some (controlChange c 1 v)
  | .ccMainVolume c v => some (controlChange c 7 v)
  | .ccPan c v => some (controlChange c 10 v)
  | .ccGp1Noise c v => some (controlChange c 16 v)
  | .ccGp2EnvCoarse c v => some (controlChange c 17 v)
  | .ccGp3EnvFine c v => some (controlChange c 18 v)
  | .ccGp4EnvShape c v => some (controlChange c 19 v)
  | .ccAllSoundOff c v => some (controlChange c 120 v)
  | .ccResetControllers c v => some (controlChange c 121 v)
  | .ccAllNotesOff c v => some (controlChange c 123 v)
  | .ccOther c k v => some (midi3 0xB#4 c k v)
  | .programChange c p => some (midi2 0xC#4 c p)
  | .channelPressure c p => some (midi2 0xD#4 c p)
  | .pitchBend c lsb msb => some (midi3 0xE#4 c lsb msb)
  | .systemReset => some (.midi [0xFF#8])
  | .systemOther s data => some (.midi (statusByte 0xF#4 s :: data))
  | .propClock chan value => some (.prop 0x01 chan value)
  | .propMode chan value => some (.prop 0x02 chan value)
  | .propNoisePeriod chan value => some (.prop 0x03 chan value)
  | .propEnvPeriod chan value => some (.prop 0x04 chan value)
  | .propEnvHold chan value => some (.prop 0x05 chan value)
  | .propEnvAlternate chan value => some (.prop 0x06 chan value)
  | .propEnvAttack chan value => some (.prop 0x07 chan value)
  | .propEnvContinue chan value => some (.prop 0x08 chan value)
  | .propTonePeriod chan value => some (.prop 0x10 chan value)
  | .propLevel chan value => some (.prop 0x11 chan value)
  | .propEnvOn chan value => some (.prop 0x12 chan value)
  | .propToneOn chan value => some (.prop 0x13 chan value)
  | .propNoiseOn chan value => some (.prop 0x14 chan value)
  | .propUnknown key chan value => some (.prop key chan value)
  | .block _ _ => none
  | .renderStep => none
  | .modTick => none
  | .construct _ _ _ _ => none

/-! ### The opcode table's packing -/

/-- The value of the key's own type whose bits are all 0: what a property row's word leaves the value (log entry 19). -/
def zeroValue (key : Byte) : PropValue :=
  match key.toNat with
  | 0x01 => .real ⟨0#64⟩
  | 0x03 => .int 0#32
  | 0x04 => .int 0#32
  | 0x10 => .int 0#32
  | 0x11 => .int 0#32
  | 0x02 => .bool false
  | 0x05 => .bool false
  | 0x06 => .bool false
  | 0x07 => .bool false
  | 0x08 => .bool false
  | 0x12 => .bool false
  | 0x13 => .bool false
  | 0x14 => .bool false
  | _ => .int 0#32

/-- How many data bytes a packed MIDI word holds for status `b0`; two for a system exclusive status. -/
def packedDataLength (b0 : Byte) : Nat :=
  match messageType b0 with
  | 0xC => 1
  | 0xD => 1
  | 0xF => (systemDataLength (lowNibble b0)).getD 2
  | _ => 2

/-- The message packed in `W = (b0 << 16) | (b1 << 8) | b2` (R81): absent bytes read 0, so bytes past the status byte's
length are dropped when all of them are 0, and kept (a malformed message) otherwise. -/
def unpackMidi (w : Nat) : List Byte :=
  let b0 : Byte := BitVec.ofNat 8 (w / 2 ^ 16)
  let data : List Byte := [BitVec.ofNat 8 (w / 2 ^ 8), BitVec.ofNat 8 w]
  let k := packedDataLength b0
  if (data.drop k).all (· == 0#8) then b0 :: data.take k else b0 :: data

/-- The payload an opcode-table word stands for: a property record from its 8-bit key (R91: the match is "applied to
`key`"), with `chan` and value zero; a MIDI message from its 24-bit word (R81). -/
def tablePayload (nbits w : Nat) : Payload :=
  if nbits ≤ 8 then .prop (BitVec.ofNat 8 w) 0#8 (zeroValue (BitVec.ofNat 8 w)) else .midi (unpackMidi w)

/-- The instruction the decoder reads from an opcode-table word. -/
def decodeTableWord (nbits w : Nat) : Option Instr :=
  match decode (tablePayload nbits w) with
  | .instr i => some i
  | .malformed _ => none

end Sys2Proof
end

