-- ==== Sys2Proof/Machine/Operands.lean ====
section
/-! DEFINITION. The operand forms: the channel of a message and its gate (R83), the 14-bit bend (R84), and the typed value and
channel of a property record (R91, R247). -/

namespace Sys2Proof.Machine

/-! ### MIDI messages -/

/-- The channel entry a MIDI channel number selects; none for 3 to 15 (R82, R83, R31). -/
def liveChannel (c : BitVec 4) : Option (Fin 3) :=
  if h : c.toNat < 3 then some ⟨c.toNat, h⟩ else none

/-- The channel gate (R83): a message for channel 3 to 15 "changes no state and emits no command". -/
def onChannel (c : BitVec 4) (s : State) (f : Fin 3 → State) : Result :=
  match liveChannel c with
  | some k => .next (f k)
  | none => .next s

/-- The 14-bit bend value `(msb << 7) + lsb` (R84, C1). -/
def bendValue (lsb msb : BitVec 7) : Nat := msb.toNat * 2 ^ 7 + lsb.toNat

/-! ### Property records (R247: steps 2 to 4 ignore a record) -/

/-- The value as a binary64 (step 2 of R247). -/
def realValue : PropValue → Option Binary64
  | .real x => some x
  | _ => none

/-- The value as an int32, in two's complement (step 2 of R247). -/
def intValue : PropValue → Option Int
  | .int v => some v.toInt
  | _ => none

/-- The value as a Boolean (step 2 of R247). -/
def boolValue : PropValue → Option Bool
  | .bool b => some b
  | _ => none

/-- The channel a per-channel record names; none for 3 to 255 (step 3 of R247). -/
def propChannel (chan : Byte) : Option (Fin 3) :=
  if h : chan.toNat < 3 then some ⟨chan.toNat, h⟩ else none

/-- An integer value from 0 to `top`; none when the type differs or the value is outside (steps 2 and 4 of R247). -/
def natUpTo (top : Nat) (value : PropValue) : Option Nat :=
  match intValue value with
  | some v => if 0 ≤ v ∧ v ≤ (top : Int) then some v.toNat else none
  | none => none

/-- The clock a record's value sets, `fl(value * 1e6)` Hz, if that is finite and positive (R281, D21). -/
def clockValue (value : PropValue) : Option Binary64 :=
  match realValue value with
  | some x =>
    let hz := x.mul (Binary64.ofInt 1000000)
    if hz.isPositive then some hz else none
  | none => none

/-- A global record (R247): ignored unless its operand is legal. -/
def onValue {α : Type} (operand : Option α) (s : State) (f : α → State) : Result :=
  match operand with
  | some a => .next (f a)
  | none => .next s

/-- A per-channel record (R247): ignored unless its operand and its channel are legal. -/
def onChannelValue {α : Type} (operand : Option α) (chan : Byte) (s : State) (f : Fin 3 → α → State) : Result :=
  match operand, propChannel chan with
  | some a, some c => .next (f c a)
  | _, _ => .next s

end Sys2Proof.Machine
end

