-- ==== Sys2Proof/Machine/Reference.lean ====
section
/-! DEFINITION. The reference definition of `F_SIN`, `F_POW` and `F_EXP` (R6, D7: the correctly rounded functions), computed
in fixed point with 320 fraction bits and rounded once. Each answers none outside the arguments it is computed for, which
include every argument that legal registers form (log entry 7). -/

namespace Sys2Proof.Reference

/-- Fraction bits of the fixed-point numbers below: `v` stands for `v / 2 ^ 320`. -/
def precision : Nat := 320

def one : Nat := 2 ^ precision

/-- The magnitude of a finite binary64 value in fixed point (bits below 2^-320 dropped). -/
def toFixed (x : Binary64) : Nat :=
  x.units * one / Binary64.unitsPerOne

/-- `acc + term + term·r/k + term·r²/(k(k+1)) + …`: `fuel` further terms of the exponential series at `r`. -/
def expSeries (r : Nat) : (fuel : Nat) → (k term acc : Nat) → Nat
  | 0, _, term, acc => acc + term
  | fuel + 1, k, term, acc => expSeries r fuel (k + 1) (term * r / one / k) (acc + term)

/-- `v` squared `n` times. -/
def squareTimes : (n : Nat) → (v : Nat) → Nat
  | 0, v => v
  | n + 1, v => squareTimes n (v * v / one)

/-- `e ^ t` for a fixed-point `t` below 1024: the series at `t / 2^16`, squared 16 times. -/
def expFixed (t : Nat) : Nat := squareTimes 16 (expSeries (t / 2 ^ 16) 45 1 one 0)

/-- `z^k / k + z^(k+2) / (k+2) + …`, with `p` holding `z^k` and `z2` holding `z²`. -/
def atanhSeries (z2 : Nat) : (fuel : Nat) → (k p acc : Nat) → Nat
  | 0, _, _, acc => acc
  | fuel + 1, k, p, acc => atanhSeries z2 fuel (k + 2) (p * z2 / one) (acc + p / k)

/-- `ln b` for a fixed-point `b` with 1 ≤ b < 2: `2 artanh((b - 1) / (b + 1))`. -/
def lnFixed (b : Nat) : Nat :=
  let z := (b - one) * one / (b + one)
  2 * atanhSeries (z * z / one) 105 1 z 0

/-- `acc + term - term·x²/(k(k+1)) + …`: the sine series, with `term` holding `x^(k-1)/(k-1)!`. -/
def sinSeries (x2 : Nat) : (fuel : Nat) → (k term : Nat) → (acc : Int) → (minus : Bool) → Int
  | 0, _, _, acc, _ => acc
  | fuel + 1, k, term, acc, minus =>
    sinSeries x2 fuel (k + 2) (term * x2 / one / (k * (k + 1)))
      (if minus then acc - term else acc + term) (!minus)

/-- Reference `F_EXP` at +0.0 and at every `x` from 2^-64 to below 512. -/
def exp (x : Binary64) : Option Binary64 :=
  let t := toFixed x
  if x.isFinite && !x.isNeg && decide (t < 512 * one) && (x.isZero || decide (one ≤ t * 2 ^ 64)) then
    some (Binary64.roundRatio false (expFixed t) one)
  else none

/-- Reference `F_SIN` at both zeros and at every `x` with 2^-64 ≤ |x| < 8. -/
def sin (x : Binary64) : Option Binary64 :=
  let t := toFixed x
  if x.isZero then some x
  else if x.isFinite && decide (t < 8 * one) && decide (one ≤ t * 2 ^ 64) then
    let s := sinSeries (t * t / one) 64 2 t 0 false
    some (Binary64.roundRatio (decide (s < 0) != x.isNeg) s.natAbs one)
  else none

/-- Reference `F_POW` for a base from 1 to below 2 and an exponent that is a zero (the power is then 1: G11) or has a
magnitude from 2^-64 to below 512. -/
def pow (b y : Binary64) : Option Binary64 :=
  let tb := toFixed b
  let ty := toFixed y
  if y.isZero then some (Binary64.ofInt 1)
  else if b.isFinite && !b.isNeg && decide (one ≤ tb) && decide (tb < 2 * one)
      && y.isFinite && decide (ty < 512 * one) && decide (one ≤ ty * 2 ^ 64) then
    let t := ty * lnFixed tb / one
    some (if y.isNeg then Binary64.roundRatio false one (expFixed t)
      else Binary64.roundRatio false (expFixed t) one)
  else none

end Sys2Proof.Reference
end

