-- ==== Sys2Proof/Machine/Pitch.lean ====
section
/-! DEFINITION. The LFO, the pitch combiner, the period function, pitch bend and the per-sample modulation step (R200 to R209). -/

namespace Sys2Proof.Machine

/-! ### The configuration functions (R6, D7)

What a rule says of a function without limiting it to the reference holds of every library here, and so do the values of the sine
at the LFO's two peaks, by the model's choice; all else about a library other than the reference is free (log entry 6). -/

/-- `HALF_PI`, `fl(pi / 2)` (R201). -/
def halfPi : Binary64 := ⟨0x3FF921FB54442D18#64⟩

/-- The argument of `F_SIN` at a phase (R201): `fl(fl(HALF_PI * PHASE) / 2048.0)`. -/
def lfoArgument (phase : Nat) : Binary64 :=
  (halfPi.mul (Binary64.ofInt phase)).div (Binary64.ofInt Config.lfoQuarter)

/-- The sine of a library other than the reference: 1 and -1 at the arguments of phases 2048 and 6144, free elsewhere. DESIGN
CHOICE: R201 gives these two values under the reference only, and the model takes them for every library so that the semitone
number peaks at those phases as R209 says; log entry 6. -/
def otherSin (x : Binary64) : Binary64 :=
  if x = lfoArgument Config.lfoQuarter then Binary64.ofInt 1
  else if x = lfoArgument (3 * Config.lfoQuarter) then Binary64.ofInt (-1)
  else Config.otherSin x

/-- The values in [-1, 1] as they are: the range R201 gives the LFO whatever the library (the reference sine is in it already).
What lies outside goes to 0.0, so that a free function becomes one that is free among all those in the range. -/
def sineRange (x : Binary64) : Binary64 :=
  if Binary64.le (Binary64.ofInt (-1)) x && Binary64.le x (Binary64.ofInt 1) then x else Binary64.zero false

/-- `F_SIN`, in [-1, 1] (R201). -/
def fSin (p : Params) (x : Binary64) : Binary64 :=
  sineRange (match p.mathLibrary with
    | .reference => (Reference.sin x).getD (otherSin x)
    | .other => otherSin x)

/-- `F_POW`, with `F_POW(x, 0.0)` = 1 whatever the library (R203, G11). -/
def fPow (p : Params) (x y : Binary64) : Binary64 :=
  if y.isZero then Binary64.ofInt 1
  else match p.mathLibrary with
    | .reference => (Reference.pow x y).getD (Config.otherPow x y)
    | .other => Config.otherPow x y

/-- `F_EXP`. -/
def fExp (p : Params) (x : Binary64) : Binary64 :=
  match p.mathLibrary with
  | .reference => (Reference.exp x).getD (Config.otherExp x)
  | .other => Config.otherExp x

/-! ### LFO, combiner and period -/

/-- `SEMI_RATIO`, 1.059463 as written (R6, R203, I2). -/
def semiRatio : Binary64 := Binary64.ofDecimal 1059463 1000000

/-- `PHASE`: the low 13 bits of `SAMPLE_CTR` (R200, C6). -/
def phase (ctr : BitVec 32) : Nat := ctr.toNat % Config.lfoPeriod

/-- `LFO` (R201): `F_SIN` of the argument at the current phase. -/
def lfo (p : Params) (ctr : BitVec 32) : Binary64 := fSin p (lfoArgument (phase ctr))

/-- The semitone number `S` of a channel (R202): `fl(fl(NOTE + BEND) + fl(DEPTH * LFO))`. -/
def semitone (p : Params) (x : Channel) (ctr : BitVec 32) : Binary64 :=
  ((Binary64.ofInt x.note).add x.bend).add (x.depth.mul (lfo p ctr))

/-- The unrounded period (R203): `fl(CLOCK_HZ / fl(3520.0 * F_POW(1.059463, fl(S - 45.0))))`. -/
def periodQuotient (p : Params) (clockHz s : Binary64) : Binary64 :=
  clockHz.div ((Binary64.ofInt (Config.prescale * Config.refHz)).mul
    (fPow p semiRatio (s.sub (Binary64.ofInt Config.refSemitone))))

/-- `RHU` of the unrounded period (R203). A period is an integer from 0 (R204, R310); where `RHU` gives none, the one sent is
a free value (log entry 9). -/
def roundPeriod (quotient : Binary64) : Nat :=
  match quotient.rhu with
  | some z => if 0 ≤ z then z.toNat else Config.freePeriod quotient
  | none => Config.freePeriod quotient

/-- `PERIOD(c)` (R203) for the channel entry `x`. -/
def Channel.period (x : Channel) (p : Params) (clockHz : Binary64) (ctr : BitVec 32) : Nat :=
  roundPeriod (periodQuotient p clockHz (semitone p x ctr))

/-- `PERIOD(c)` at the current registers (R203, D11). -/
def State.period (s : State) (c : Fin 3) : Nat := (s.chan c).period s.params s.clockHz s.sampleCtr

/-- `Emit(TONE(c, PERIOD(c)))`. -/
def State.pushTone (s : State) (c : Fin 3) : State := s.emit (.tone c (s.period c))

/-- `ToneUpdate(c)` (R205). -/
def State.toneUpdate (s : State) (c : Fin 3) : State := if s.sounding c then s.pushTone c else s

/-- `PushLevel(c)` (R122). -/
def State.pushLevel (s : State) (c : Fin 3) : State :=
  if s.sounding c then s.emit (.vol c (level (s.chan c).volume (s.chan c).vel)) else s

/-! ### Pitch bend and the per-sample step -/

/-- The bend in semitones (R206): `fl(fl((v - 8192) / 8192.0) * 12.0)`. -/
def bendSemitones (lsb msb : BitVec 7) : Binary64 :=
  ((Binary64.ofInt ((bendValue lsb msb : Int) - 8192)).div (Binary64.ofInt 8192)).mul (Binary64.ofInt 12)

/-- `PITCH_BEND` (R206). -/
def execPitchBend (c : BitVec 4) (lsb msb : BitVec 7) (s : State) : Result :=
  onChannel c s fun k => (s.setChan k { s.chan k with bend := bendSemitones lsb msb }).toneUpdate k

/-- One channel of `MOD_TICK` (R207). -/
def State.modTickChannel (s : State) (c : Fin 3) : State := if s.modulated c then s.pushTone c else s

/-- `MOD_TICK`: the channels in the order 0, 1, 2 (R207, D9). -/
def State.modTick (s : State) : State := ((s.modTickChannel 0).modTickChannel 1).modTickChannel 2

/-- `MOD_TICK` as an internal operation (R207, R93). -/
def execModTick (s : State) : Result := .next s.modTick

end Sys2Proof.Machine
end

