-- ==== Sys2Proof/Machine/NoteEvents.lean ====
section
/-! DEFINITION. The MIDI note state machine: note off, note on and its policies, program change, the all-off helper and System
Reset (R120 to R129). -/

namespace Sys2Proof.Machine

/-- Note off on a live channel (R123): ignored unless the note is the channel's. -/
def State.noteOff (s : State) (c : Fin 3) (n : BitVec 7) : State :=
  if (s.chan c).note = n.toNat then
    (s.emit (.vol c 0)).setChan c { s.chan c with note := -1 }
  else s

/-- `NOTE_OFF` (R123). -/
def execNoteOff (c : BitVec 4) (n _v : BitVec 7) (s : State) : Result := onChannel c s fun k => s.noteOff k n

/-- The retriggering note on (R124): note and velocity, then `VOL`, `SHAPE`, `TONE`. -/
def State.startNote (s : State) (c : Fin 3) (n v : BitVec 7) : State :=
  (((s.setChan c { s.chan c with note := n.toNat, vel := v }).emit (.vol c (level (s.chan c).volume v))).emit
    (.shape s.envShape)).pushTone c

/-- Note on under `NOTE_ON_POLICY` (R124, R125). -/
def State.noteOn (s : State) (c : Fin 3) (n v : BitVec 7) : State :=
  match s.params.noteOnPolicy with
  | .retrigger => s.startNote c n v
  | .rejectWhileSounding => if s.sounding c then s else s.startNote c n v

/-- `NOTE_ON` (R124, R125). -/
def execNoteOn (c : BitVec 4) (n v : BitVec 7) (s : State) : Result := onChannel c s fun k => s.noteOn k n v

/-- `NOTE_ON_VEL0` under `VEL0_POLICY` (R88, R126). -/
def execNoteOnVel0 (c : BitVec 4) (n : BitVec 7) (s : State) : Result :=
  onChannel c s fun k =>
    match s.params.vel0Policy with
    | .asNoteOn => s.noteOn k n 0
    | .asNoteOff => s.noteOff k n

/-- `TONE_EN` of program `p` (R127). -/
def programTone (p : BitVec 7) : Bool := (p &&& 1) == 0

/-- `NOISE_EN` of program `p` (R127). -/
def programNoise (p : BitVec 7) : Bool := !((p &&& 3) == 0 || (p &&& 3) == 3)

/-- `ENV_ON` of program `p` (R127). -/
def programEnvOn (p : BitVec 7) : Bool := decide (3 < p.toNat)

/-- Program change on a live channel (R127): `VOL`, `MIXER`, `ENVON`, all unconditional (C9, D14). -/
def State.programChange (s : State) (c : Fin 3) (p : BitVec 7) : State :=
  (((s.setChan c { s.chan c with
      toneEn := programTone p, noiseEn := programNoise p, envOn := programEnvOn p, note := -1 }).emit
    (.vol c 0)).emit (.mixer c (programTone p) (programNoise p))).emit (.envOn c (programEnvOn p))

/-- `PROGRAM_CHANGE` (R127). -/
def execProgramChange (c : BitVec 4) (p : BitVec 7) (s : State) : Result := onChannel c s fun k => s.programChange k p

/-- `Silence(c)` (R128). -/
def State.silence (s : State) (c : Fin 3) : State :=
  if s.sounding c then (s.emit (.vol c 0)).setChan c { s.chan c with note := -1 } else s

/-- 0.5 as a binary64. -/
def half : Binary64 := Binary64.ofDecimal 1 2

/-- The channel fields System Reset writes (R47, R129); `VEL` and `BEND` stay. -/
def Channel.systemReset (x : Channel) : Channel :=
  { x with
    note := -1
    volume := 12
    envOn := false
    depth := Binary64.zero false
    toneEn := true
    noiseEn := false
    pan := half }

/-- The commands System Reset sends for one channel (R129). -/
def State.pushChannelReset (s : State) (c : Fin 3) : State :=
  (((s.emit (.vol c 0)).emit (.mixer c true false)).emit (.envOn c false)).emit (.pan c half .equalPower)

/-- The registers System Reset writes (R47, R129). -/
def State.resetRegisters (s : State) : State :=
  { s with ch := s.ch.map Channel.systemReset, noisePeriod := 0, envPeriod := 0, envShape := 0 }

/-- `SYSTEM_RESET` (R129): registers, then the 15 commands. -/
def execSystemReset (s : State) : Result :=
  .next ((((((s.resetRegisters.pushChannelReset 0).pushChannelReset 1).pushChannelReset 2).emit (.noise 0)).emit
    (.envPer 0)).emit (.shape 0))

end Sys2Proof.Machine
end

