-- ==== Sys2Proof/Machine/Controllers.lean ====
section
/-! DEFINITION. The controller mapping table (R160 to R171). Every controller passes the channel gate first, the global ones
included (R83, R160). -/

namespace Sys2Proof.Machine

/-! ### Channel controllers -/

/-- `CC_RESET_CONTROLLERS` (R161): `TONE`, then the level, if sounding; no register is written. -/
def execCcResetControllers (c : BitVec 4) (_v : BitVec 7) (s : State) : Result :=
  onChannel c s fun k => if s.sounding k then (s.pushTone k).pushLevel k else s

/-- `CC_ALL_SOUND_OFF` (R162). -/
def execCcAllSoundOff (c : BitVec 4) (_v : BitVec 7) (s : State) : Result := onChannel c s fun k => s.silence k

/-- `CC_ALL_NOTES_OFF` (R163). -/
def execCcAllNotesOff (c : BitVec 4) (_v : BitVec 7) (s : State) : Result := onChannel c s fun k => s.silence k

/-- The LFO depth of a modulation-wheel value (R164): `fl(fl(v / 127.0) * 0.5)`. -/
def wheelDepth (v : BitVec 7) : Binary64 :=
  ((Binary64.ofInt v.toNat).div (Binary64.ofInt 127)).mul half

/-- `CC_MOD_WHEEL` (R164). -/
def execCcModWheel (c : BitVec 4) (v : BitVec 7) (s : State) : Result :=
  onChannel c s fun k => (s.setChan k { s.chan k with depth := wheelDepth v }).toneUpdate k

/-- The pan of a controller value (R165): `fl(max(0, v - 1) / 126.0)`. -/
def panPosition (v : BitVec 7) : Binary64 :=
  (Binary64.ofInt (max 0 ((v.toNat : Int) - 1))).div (Binary64.ofInt 126)

/-- `CC_PAN` (R165): always the equal-power law; not gated on `SOUNDING`. -/
def execCcPan (c : BitVec 4) (v : BitVec 7) (s : State) : Result :=
  onChannel c s fun k =>
    (s.setChan k { s.chan k with pan := panPosition v }).emit (.pan k (panPosition v) .equalPower)

/-- `CC_MAIN_VOLUME` (R166). -/
def execCcMainVolume (c : BitVec 4) (v : BitVec 7) (s : State) : Result :=
  onChannel c s fun k => (s.setChan k { s.chan k with volume := (v >>> 3).setWidth 4 }).pushLevel k

/-! ### Global controllers -/

/-- `CC_GP1_NOISE` (R167). -/
def execCcGp1Noise (c : BitVec 4) (v : BitVec 7) (s : State) : Result :=
  onChannel c s fun _ => { s with noisePeriod := (v >>> 2).toNat }.emit (.noise (v >>> 2).toNat)

/-- `ENV_CORR_A` (R6). -/
def envCorrA : Binary64 := Binary64.ofDecimal 204 1000000000

/-- `ENV_CORR_B` (R6). -/
def envCorrB : Binary64 := Binary64.ofDecimal 1599763 1000000000

/-- The real value the correction rounds (R169): `fl(p + fl(ENV_CORR_A * F_EXP(fl(ENV_CORR_B * p))))`. -/
def envCorrReal (params : Params) (p : Nat) : Binary64 :=
  (Binary64.ofInt p).add (envCorrA.mul (fExp params (envCorrB.mul (Binary64.ofInt p))))

/-- `ENV_CORR(p)` (R169): the floor of that value, unclamped, and an integer at least `p` whatever the library. Where the floor
is no such integer (a library whose `F_EXP` is not finite, or negative), the result is a free one (log entry 10). -/
def envCorr (params : Params) (p : Nat) : Nat :=
  match (envCorrReal params p).floor with
  | some z => if (p : Int) ≤ z then z.toNat else p + Config.freeEnvExcess (envCorrReal params p)
  | none => p + Config.freeEnvExcess (envCorrReal params p)

/-- The merge of the coarse byte: bits 6 to 0 kept, bits 13 to 7 written, bits 15 and 14 cleared (R168, C5). -/
def mergeCoarse (period : BitVec 16) (v : BitVec 7) : BitVec 16 := (period &&& 0x7F#16) ||| (v.setWidth 16 <<< 7)

/-- `CC_GP2_ENV_COARSE` (R168): the register keeps the uncorrected value, the chip gets the corrected one. -/
def execCcGp2EnvCoarse (c : BitVec 4) (v : BitVec 7) (s : State) : Result :=
  onChannel c s fun _ =>
    { s with envPeriod := mergeCoarse s.envPeriod v }.emit
      (.envPer (envCorr s.params (mergeCoarse s.envPeriod v).toNat))

/-- The merge of the fine byte: bits 15 to 7 kept, bits 6 to 0 written (R170, C5). -/
def mergeFine (period : BitVec 16) (v : BitVec 7) : BitVec 16 := (period &&& 0xFF80#16) ||| v.setWidth 16

/-- `CC_GP3_ENV_FINE` (R170): uncorrected. -/
def execCcGp3EnvFine (c : BitVec 4) (v : BitVec 7) (s : State) : Result :=
  onChannel c s fun _ =>
    { s with envPeriod := mergeFine s.envPeriod v }.emit (.envPer (mergeFine s.envPeriod v).toNat)

/-- The envelope-shape bit packer: `(v >> 4) | 8` (R171). -/
def packShape (v : BitVec 7) : BitVec 4 := (v >>> 4).setWidth 4 ||| 8#4

/-- `CC_GP4_ENV_SHAPE` (R171). -/
def execCcGp4EnvShape (c : BitVec 4) (v : BitVec 7) (s : State) : Result :=
  onChannel c s fun _ => { s with envShape := packShape v }.emit (.shape (packShape v))

/-- `CC_OTHER` (R160): ignored. -/
def execCcOther (_c : BitVec 4) (_k _v : BitVec 7) (s : State) : Result := .next s

end Sys2Proof.Machine
end

