-- ==== Sys2Proof/Machine/Properties.lean ====
section
/-! DEFINITION. The direct property writes (R247 to R261): each stores its value where a register holds it and sends the
matching command, not gated on `SOUNDING` (R248). -/

namespace Sys2Proof.Machine

/-- The largest int32, the top of the noise period and of the overrides (R90, D24). -/
def maxInt32 : Nat := 2 ^ 31 - 1

/-- `PROP_NOISE_PERIOD` (R250). -/
def execPropNoisePeriod (_chan : Byte) (value : PropValue) (s : State) : Result :=
  onValue (natUpTo maxInt32 value) s fun p => { s with noisePeriod := p }.emit (.noise p)

/-- `PROP_ENV_PERIOD` (R251): not corrected. -/
def execPropEnvPeriod (_chan : Byte) (value : PropValue) (s : State) : Result :=
  onValue (natUpTo 65535 value) s fun p =>
    { s with envPeriod := BitVec.ofNat 16 p }.emit (.envPer p)

/-- A write of one envelope-shape bit (R252 to R255): the shape is sent even when it does not change. -/
def writeShapeBit (i : Nat) (value : PropValue) (s : State) : Result :=
  onValue (boolValue value) s fun b =>
    { s with envShape := setShapeBit s.envShape i b }.emit (.shape (setShapeBit s.envShape i b))

/-- `PROP_ENV_HOLD`: bit 0 (R252). -/
def execPropEnvHold (_chan : Byte) (value : PropValue) (s : State) : Result := writeShapeBit 0 value s

/-- `PROP_ENV_ALTERNATE`: bit 1 (R253). -/
def execPropEnvAlternate (_chan : Byte) (value : PropValue) (s : State) : Result := writeShapeBit 1 value s

/-- `PROP_ENV_ATTACK`: bit 2 (R254). -/
def execPropEnvAttack (_chan : Byte) (value : PropValue) (s : State) : Result := writeShapeBit 2 value s

/-- `PROP_ENV_CONTINUE`: bit 3 (R255). -/
def execPropEnvContinue (_chan : Byte) (value : PropValue) (s : State) : Result := writeShapeBit 3 value s

/-- `PROP_TONE_PERIOD` (R256): no register is written. -/
def execPropTonePeriod (chan : Byte) (value : PropValue) (s : State) : Result :=
  onChannelValue (natUpTo maxInt32 value) chan s fun c p => s.emit (.tone c p)

/-- `PROP_LEVEL` (R257): no register is written. -/
def execPropLevel (chan : Byte) (value : PropValue) (s : State) : Result :=
  onChannelValue (natUpTo maxInt32 value) chan s fun c l => s.emit (.vol c l)

/-- `PROP_ENV_ON` (R258). -/
def execPropEnvOn (chan : Byte) (value : PropValue) (s : State) : Result :=
  onChannelValue (boolValue value) chan s fun c b =>
    (s.setChan c { s.chan c with envOn := b }).emit (.envOn c b)

/-- `PROP_TONE_ON` (R259): the mixer command carries the stored noise flag. -/
def execPropToneOn (chan : Byte) (value : PropValue) (s : State) : Result :=
  onChannelValue (boolValue value) chan s fun c b =>
    (s.setChan c { s.chan c with toneEn := b }).emit (.mixer c b (s.chan c).noiseEn)

/-- `PROP_NOISE_ON` (R260): the mixer command carries the stored tone flag. -/
def execPropNoiseOn (chan : Byte) (value : PropValue) (s : State) : Result :=
  onChannelValue (boolValue value) chan s fun c b =>
    (s.setChan c { s.chan c with noiseEn := b }).emit (.mixer c (s.chan c).toneEn b)

/-- `PROP_UNKNOWN` (R261): ignored. -/
def execPropUnknown (_key _chan : Byte) (_value : PropValue) (s : State) : Result := .next s

end Sys2Proof.Machine
end

