-- ==== Sys2Proof/Machine/Reconfiguration.lean ====
section
/-! DEFINITION. Mode and clock reconfiguration (R280 to R284), and power-on (R330, R331). -/

namespace Sys2Proof.Machine

/-- `Retune` (R284): the channels in the order 0, 1, 2. -/
def State.retune (s : State) : State := ((s.toneUpdate 0).toneUpdate 1).toneUpdate 2

/-- `Reconfigure` (R280): `CFG`, its answer into `CFG_INVALID`, then the retune, whatever the answer (R283). -/
def State.reconfigure (s : State) : State := s.emitCfg.retune

/-- `PROP_CLOCK` (R281). -/
def execPropClock (_chan : Byte) (value : PropValue) (s : State) : Result :=
  onValue (clockValue value) s fun hz => { s with clockHz := hz }.reconfigure

/-- `MODE` from a Boolean: 0 is AY, 1 is YM (R23, R282). -/
def modeOf (b : Bool) : ChipMode := if b then .ym else .ay

/-- `PROP_MODE` (R282). -/
def execPropMode (_chan : Byte) (value : PropValue) (s : State) : Result :=
  onValue (boolValue value) s fun b => { s with mode := modeOf b }.reconfigure

/-- `CONSTRUCT` (R330, R331): without the host capability there is no state; otherwise every register takes its power-on
value and one `CFG` is sent. The host's queues stay the host's (log entry 16). -/
def execConstruct (cap : Bool) (sampleRate : Binary64) (removeDc : Bool) (params : Params) (s : State) : Result :=
  if cap then
    .next (State.constructed sampleRate removeDc params s.cfgOk s.calls s.cfgAnswers.tail s.renderAnswers (s.draws + 1))
  else .refused .hostCapabilityMissing

end Sys2Proof.Machine
end

