-- ==== Sys2Proof/Machine/Dispatcher.lean ====
section
/-! DEFINITION. The event-sequenced dispatcher (R240 to R249): the render step, the ignored messages, the application of one
event, and the block transaction as one operation. Machine/Step.lean runs the same transaction one step at a time. -/

namespace Sys2Proof.Machine

/-! ### Ignored messages (R246) -/

/-- `POLY_AFTERTOUCH` (R246): ignored. -/
def execPolyAftertouch (_c : BitVec 4) (_n _p : BitVec 7) (s : State) : Result := .next s

/-- `CHANNEL_PRESSURE` (R246): ignored. -/
def execChannelPressure (_c : BitVec 4) (_p : BitVec 7) (s : State) : Result := .next s

/-- `SYSTEM_OTHER` (R246): ignored. -/
def execSystemOther (_status : BitVec 4) (_data : List Byte) (s : State) : Result := .next s

/-! ### The render step (R243) -/

/-- One output frame (R243): `MOD_TICK`, `RENDER`, `OutWrite`, `CURSOR + 1`, `SAMPLE_CTR + 1`, in that order (D9). -/
def State.renderFrame (s : State) : State :=
  let t := s.modTick
  let u := t.emitRender.outWrite t.cursor t.samplePair.1 t.samplePair.2
  { u with cursor := u.cursor + 1, sampleCtr := u.sampleCtr + 1 }

/-- `RENDER_STEP` (R243). Frames exist for `CURSOR` below `N` (R42, R43); beyond them the source defines nothing (R241; log
entry 14). -/
def execRenderStep (s : State) : Result :=
  if s.cursor < s.frames.toNat then .next s.renderFrame else .fault .outsideBuffer

/-! ### One event (R244) -/

/-- The meaning of an event instruction. The internal operations are not events (R93): `decode` never answers one, and this
function ignores them. It agrees with `exec` on every event (Laws/Dispatcher.lean). -/
def applyInstr (i : Instr) (s : State) : Result :=
  match i with
  | .noteOff c n v => execNoteOff c n v s
  | .noteOnVel0 c n => execNoteOnVel0 c n s
  | .noteOn c n v => execNoteOn c n v s
  | .polyAftertouch c n p => execPolyAftertouch c n p s
  | .ccModWheel c v => execCcModWheel c v s
  | .ccMainVolume c v => execCcMainVolume c v s
  | .ccPan c v => execCcPan c v s
  | .ccGp1Noise c v => execCcGp1Noise c v s
  | .ccGp2EnvCoarse c v => execCcGp2EnvCoarse c v s
  | .ccGp3EnvFine c v => execCcGp3EnvFine c v s
  | .ccGp4EnvShape c v => execCcGp4EnvShape c v s
  | .ccAllSoundOff c v => execCcAllSoundOff c v s
  | .ccResetControllers c v => execCcResetControllers c v s
  | .ccAllNotesOff c v => execCcAllNotesOff c v s
  | .ccOther c k v => execCcOther c k v s
  | .programChange c p => execProgramChange c p s
  | .channelPressure c p => execChannelPressure c p s
  | .pitchBend c lsb msb => execPitchBend c lsb msb s
  | .systemReset => execSystemReset s
  | .systemOther status data => execSystemOther status data s
  | .propClock chan value => execPropClock chan value s
  | .propMode chan value => execPropMode chan value s
  | .propNoisePeriod chan value => execPropNoisePeriod chan value s
  | .propEnvPeriod chan value => execPropEnvPeriod chan value s
  | .propEnvHold chan value => execPropEnvHold chan value s
  | .propEnvAlternate chan value => execPropEnvAlternate chan value s
  | .propEnvAttack chan value => execPropEnvAttack chan value s
  | .propEnvContinue chan value => execPropEnvContinue chan value s
  | .propTonePeriod chan value => execPropTonePeriod chan value s
  | .propLevel chan value => execPropLevel chan value s
  | .propEnvOn chan value => execPropEnvOn chan value s
  | .propToneOn chan value => execPropToneOn chan value s
  | .propNoiseOn chan value => execPropNoiseOn chan value s
  | .propUnknown key chan value => execPropUnknown key chan value s
  | .block _ _ => .next s
  | .renderStep => .next s
  | .modTick => .next s
  | .construct _ _ _ _ => .next s

/-- `Apply(e); EV_IDX <- EV_IDX + 1` (R242, R244): a malformed payload is ignored, and takes its `EV_IDX` step like any other. -/
def applyEvent (e : Event) (s : State) : Result :=
  match decode e.payload with
  | .instr i => andThen (applyInstr i s) fun t => .next t.advance
  | .malformed _ => .next s.advance

/-! ### The block transaction (R242) -/

/-- Whether `BLOCK(N, E)` is the empty block `BLOCK(0, [])`, which changes no state (R249). -/
def emptyBlock (n : BitVec 32) (events : List Event) : Bool := n == 0 && events.isEmpty

/-- The start of a block that keeps the host contract and is not empty: `CURSOR <- 0`, `EV_IDX <- 0`, `N` and the inputs in place, the output
buffers of `N` frames not yet written (R42, R43, R242). -/
def State.openBlock (s : State) (n : BitVec 32) (events : List Event) : State :=
  { s with
    frames := n
    cursor := 0
    evIdx := 0
    outL := List.replicate n.toNat none
    outR := List.replicate n.toNat none
    events := events }

/-- `k` render steps. -/
def renderFrames : (k : Nat) → State → Result
  | 0, s => .next s
  | k + 1, s => andThen (execRenderStep s) (renderFrames k)

/-- `while CURSOR < target: RENDER_STEP` (R242). -/
def renderTo (target : Nat) (s : State) : Result := renderFrames (target - s.cursor) s

/-- The loop of R242 over the events not applied yet, and the frames after the last one. -/
def runEvents : List Event → State → Result
  | [], s => renderTo s.frames.toNat s
  | e :: rest, s => andThen (andThen (renderTo e.offset.toNat s) (applyEvent e)) (runEvents rest)

/-- `BLOCK` (R240 to R242), from its start to its completion: refused without a step when `FAULT` is 1, refused with the
host-contract fault when an event lies at or beyond `N`, and otherwise run through every event and every frame; the empty block
changes no state (R249). -/
def execBlock (n : BitVec 32) (events : List Event) (s : State) : Result :=
  if s.fault then .fault (.hostContract s.faultIndex)
  else
    match firstBeyond n events with
    | some j => .next (s.takeHostContract j)
    | none => if emptyBlock n events then .next s else runEvents events (s.openBlock n events)

end Sys2Proof.Machine
end

