-- ==== Sys2Proof/Machine/Dispatch.lean ====
section
/-! DEFINITION. Which meaning each instruction has: one arm per constructor, in the opcode table's order. -/

namespace Sys2Proof.Machine

/-- The meaning of an instruction. -/
def exec (i : Instr) (s : State) : Host.Outcome State Fault Refusal :=
  match i with
  | .noteOff c n v => Sys2Proof.Machine.execNoteOff c n v s
  | .noteOnVel0 c n => Sys2Proof.Machine.execNoteOnVel0 c n s
  | .noteOn c n v => Sys2Proof.Machine.execNoteOn c n v s
  | .polyAftertouch c n p => Sys2Proof.Machine.execPolyAftertouch c n p s
  | .ccModWheel c v => Sys2Proof.Machine.execCcModWheel c v s
  | .ccMainVolume c v => Sys2Proof.Machine.execCcMainVolume c v s
  | .ccPan c v => Sys2Proof.Machine.execCcPan c v s
  | .ccGp1Noise c v => Sys2Proof.Machine.execCcGp1Noise c v s
  | .ccGp2EnvCoarse c v => Sys2Proof.Machine.execCcGp2EnvCoarse c v s
  | .ccGp3EnvFine c v => Sys2Proof.Machine.execCcGp3EnvFine c v s
  | .ccGp4EnvShape c v => Sys2Proof.Machine.execCcGp4EnvShape c v s
  | .ccAllSoundOff c v => Sys2Proof.Machine.execCcAllSoundOff c v s
  | .ccResetControllers c v => Sys2Proof.Machine.execCcResetControllers c v s
  | .ccAllNotesOff c v => Sys2Proof.Machine.execCcAllNotesOff c v s
  | .ccOther c k v => Sys2Proof.Machine.execCcOther c k v s
  | .programChange c p => Sys2Proof.Machine.execProgramChange c p s
  | .channelPressure c p => Sys2Proof.Machine.execChannelPressure c p s
  | .pitchBend c lsb msb => Sys2Proof.Machine.execPitchBend c lsb msb s
  | .systemReset => Sys2Proof.Machine.execSystemReset s
  | .systemOther status data => Sys2Proof.Machine.execSystemOther status data s
  | .propClock chan value => Sys2Proof.Machine.execPropClock chan value s
  | .propMode chan value => Sys2Proof.Machine.execPropMode chan value s
  | .propNoisePeriod chan value => Sys2Proof.Machine.execPropNoisePeriod chan value s
  | .propEnvPeriod chan value => Sys2Proof.Machine.execPropEnvPeriod chan value s
  | .propEnvHold chan value => Sys2Proof.Machine.execPropEnvHold chan value s
  | .propEnvAlternate chan value => Sys2Proof.Machine.execPropEnvAlternate chan value s
  | .propEnvAttack chan value => Sys2Proof.Machine.execPropEnvAttack chan value s
  | .propEnvContinue chan value => Sys2Proof.Machine.execPropEnvContinue chan value s
  | .propTonePeriod chan value => Sys2Proof.Machine.execPropTonePeriod chan value s
  | .propLevel chan value => Sys2Proof.Machine.execPropLevel chan value s
  | .propEnvOn chan value => Sys2Proof.Machine.execPropEnvOn chan value s
  | .propToneOn chan value => Sys2Proof.Machine.execPropToneOn chan value s
  | .propNoiseOn chan value => Sys2Proof.Machine.execPropNoiseOn chan value s
  | .propUnknown key chan value => Sys2Proof.Machine.execPropUnknown key chan value s
  | .block n events => Sys2Proof.Machine.execBlock n events s
  | .renderStep => Sys2Proof.Machine.execRenderStep s
  | .modTick => Sys2Proof.Machine.execModTick s
  | .construct cap sampleRate removeDc params => Sys2Proof.Machine.execConstruct cap sampleRate removeDc params s

end Sys2Proof.Machine
end

