-- ==== Sys2Proof/Machine/Step.lean ====
section
/-! DEFINITION. One step of the machine: in a block, one render step or one event (the loop of R242, one turn at a time); when
the block is idle, the start of the host's next call, or nothing (R313). -/

namespace Sys2Proof.Machine

/-- The step that applies event `e` (R244): the meaning of the instruction its payload decodes to, then `EV_IDX + 1`; a
malformed payload takes only its `EV_IDX` step. -/
def stepEvent (e : Event) (s : State) : Result :=
  match decode e.payload with
  | .instr i => andThen (exec i s) fun t => .next t.advance
  | .malformed _ => .next s.advance

/-- The start of a host call: a block is checked and opened (R241, R242), its frames and events being the next steps; the empty
block changes no state (R249); a construction runs whole (R330). -/
def startCall (call : HostCall) (s : State) : Result :=
  match call with
  | .construct cap sampleRate removeDc params => exec (.construct cap sampleRate removeDc params) s
  | .block n events =>
    match firstBeyond n events with
    | some j => .next (s.takeHostContract j)
    | none => if emptyBlock n events then .next s else .next (s.openBlock n events)

/-- One step when no block is in progress: a state with `FAULT` = 1 has none (R241); otherwise the next pending call is
started, and with no call pending the block is idle "and does nothing" (R313). -/
def stepIdle (s : State) : Result :=
  if s.fault then .fault (.hostContract s.faultIndex)
  else
    match s.calls with
    | [] => .next s
    | call :: rest => startCall call { s with calls := rest }

/-- One step. Within a block the loop of R242 decides: render up to the next event's offset, apply it, and after the last
event render up to `N`. -/
def step (s : State) : Host.Outcome State Fault Refusal :=
  match s.events[s.evIdx]? with
  | some e => if s.cursor < e.offset.toNat then exec .renderStep s else stepEvent e s
  | none => if s.cursor < s.frames.toNat then exec .renderStep s else stepIdle s

/-- `s` in a block of one frame whose only event, at offset 0, carries the opcode-table word `w`: the next step applies it. -/
def State.withFetchWord (s : State) (nbits w : Nat) : State :=
  { s with
    frames := 1
    cursor := 0
    evIdx := 0
    outL := [none]
    outR := [none]
    events := [{ offset := 0, payload := tablePayload nbits w }] }

/-- No block is in progress: every event applied, every frame rendered (R313). -/
def State.isIdle (s : State) : Bool := decide (s.events.length ≤ s.evIdx) && decide (s.frames.toNat ≤ s.cursor)

end Sys2Proof.Machine
end

