-- ==== Sys2Proof/Machine/Assembly.lean ====
section
/-! DEFINITION. The event assembly syntax of R94 as data, with the payloads each line encodes, and the pseudo-instructions of R95
with their expansions. -/

namespace Sys2Proof

/-- The property keys by name (R90, R94). -/
inductive PropKey where
  | clock | mode | noisePeriod | envPeriod | envHold | envAlternate | envAttack | envContinue
  | tonePeriod | level | envOn | toneOn | noiseOn
deriving DecidableEq, Repr

/-- The key identifier (R90). -/
def PropKey.code : PropKey → Byte
  | .clock => 0x01
  | .mode => 0x02
  | .noisePeriod => 0x03
  | .envPeriod => 0x04
  | .envHold => 0x05
  | .envAlternate => 0x06
  | .envAttack => 0x07
  | .envContinue => 0x08
  | .tonePeriod => 0x10
  | .level => 0x11
  | .envOn => 0x12
  | .toneOn => 0x13
  | .noiseOn => 0x14

/-- One assembly line after its offset: the syntax of R94, then the pseudo-instructions of R95. -/
inductive AsmLine where
  | noteOff (c : BitVec 4) (n v : BitVec 7)
  | noteOn (c : BitVec 4) (n v : BitVec 7)
  | cc (c : BitVec 4) (k v : BitVec 7)
  | mod (c : BitVec 4) (v : BitVec 7)
  | volume (c : BitVec 4) (v : BitVec 7)
  | pan (c : BitVec 4) (v : BitVec 7)
  | gp1 (c : BitVec 4) (v : BitVec 7)
  | gp2 (c : BitVec 4) (v : BitVec 7)
  | gp3 (c : BitVec 4) (v : BitVec 7)
  | gp4 (c : BitVec 4) (v : BitVec 7)
  | soundOff (c : BitVec 4)
  | resetCtrl (c : BitVec 4)
  | notesOff (c : BitVec 4)
  | program (c : BitVec 4) (p : BitVec 7)
  | bend (c : BitVec 4) (lsb msb : BitVec 7)
  | sysReset
  | raw (bytes : List Byte)
  | propGlobal (key : PropKey) (value : PropValue)
  | propChannel (key : PropKey) (c : Byte) (value : PropValue)
  | bend14 (c : BitVec 4) (v : BitVec 14)
  | bendCentre (c : BitVec 4)
  | volume4 (c : BitVec 4) (v4 : BitVec 4)
  | shapeCc (c : BitVec 4) (s : BitVec 4)
  | envPerCc (c : BitVec 4) (p : BitVec 14)
  | allOff
deriving DecidableEq, Repr

/-- The constraint a pseudo-instruction puts on its operands beyond their widths (R95). -/
def AsmLine.legal : AsmLine → Bool
  | .shapeCc _ s => decide (8 ≤ s.toNat)
  | _ => true

/-- The payloads a line encodes, in order (R94, R95). -/
def AsmLine.payloads : AsmLine → List Payload
  | .noteOff c n v => [midi3 0x8#4 c n v]
  | .noteOn c n v => [midi3 0x9#4 c n v]
  | .cc c k v => [midi3 0xB#4 c k v]
  | .mod c v => [controlChange c 1 v]
  | .volume c v => [controlChange c 7 v]
  | .pan c v => [controlChange c 10 v]
  | .gp1 c v => [controlChange c 16 v]
  | .gp2 c v => [controlChange c 17 v]
  | .gp3 c v => [controlChange c 18 v]
  | .gp4 c v => [controlChange c 19 v]
  | .soundOff c => [controlChange c 120 0]
  | .resetCtrl c => [controlChange c 121 0]
  | .notesOff c => [controlChange c 123 0]
  | .program c p => [midi2 0xC#4 c p]
  | .bend c lsb msb => [midi3 0xE#4 c lsb msb]
  | .sysReset => [.midi [0xFF#8]]
  | .raw bytes => [.midi bytes]
  | .propGlobal key value => [.prop key.code 0 value]
  | .propChannel key c value => [.prop key.code c value]
  | .bend14 c v => [midi3 0xE#4 c (v.setWidth 7) ((v >>> 7).setWidth 7)]
  | .bendCentre c => [midi3 0xE#4 c 0#7 64#7]
  | .volume4 c v4 => [controlChange c 7 (v4.setWidth 7 <<< 3)]
  | .shapeCc c s => [controlChange c 19 ((s &&& 7).setWidth 7 <<< 4)]
  | .envPerCc c p => [controlChange c 17 ((p >>> 7).setWidth 7), controlChange c 18 (p.setWidth 7)]
  | .allOff => [controlChange 0 123 0, controlChange 1 123 0, controlChange 2 123 0]

/-- The events of a line at an offset: "every expansion's events take the pseudo-instruction's offset" (R95). -/
def AsmLine.events (offset : BitVec 32) (line : AsmLine) : List Event :=
  line.payloads.map fun p => { offset := offset, payload := p }

/-- One `block N=… end` of a program (R94), as the call it makes. -/
def assembleBlock (n : BitVec 32) (lines : List (BitVec 32 × AsmLine)) : HostCall :=
  .block n (lines.flatMap fun l => l.2.events l.1)

end Sys2Proof
end

