-- ==== Sys2Proof/Machine/Observe.lean ====
section
/-! DEFINITION. The observation port (R312): what a model exposes, read-only, between block transactions. No event reads it. -/

namespace Sys2Proof.Machine

/-- Every register of R21 to R41, `CHIP_TRACE`, and the last block's output buffers (R312). `N`, `CURSOR` and `EV_IDX` are not
observable (R42). -/
structure Observation where
  clockHz : Binary64
  sampleRate : Binary64
  mode : ChipMode
  removeDc : Bool
  noisePeriod : Nat
  envPeriod : BitVec 16
  envShape : BitVec 4
  sampleCtr : BitVec 32
  cfgInvalid : Bool
  fault : Bool
  ch : Vector Channel 3
  chipTrace : List ChipCmd
  outL : List (Option Binary32)
  outR : List (Option Binary32)
deriving DecidableEq, Repr

/-- What the port shows of `s`. -/
def State.observation (s : State) : Observation where
  clockHz := s.clockHz
  sampleRate := s.sampleRate
  mode := s.mode
  removeDc := s.removeDc
  noisePeriod := s.noisePeriod
  envPeriod := s.envPeriod
  envShape := s.envShape
  sampleCtr := s.sampleCtr
  cfgInvalid := s.cfgInvalid
  fault := s.fault
  ch := s.ch
  chipTrace := s.chipTrace
  outL := s.outL
  outR := s.outR

/-- The port: it answers between block transactions only (R312). -/
def State.observe (s : State) : Option Observation := if s.isIdle then some s.observation else none

end Sys2Proof.Machine
end

