-- ==== Sys2Proof/Safety.lean ====
section
/-! DEFINITION. The invariants of the machine, in the terms the statements use: register ranges (R21 to R42) and the shape of a
block in progress (R42, R43). -/

namespace Sys2Proof.Machine

/-- The range of `NOTE` (R34). -/
def Channel.noteInRange (x : Channel) : Prop := -1 ≤ x.note ∧ x.note ≤ 127

/-- The ranges of `DEPTH` (R39), `BEND` (R38) and `PAN` (R41), as real values. -/
def Channel.realsInRange (x : Channel) : Prop :=
  (Binary64.le (Binary64.zero false) x.depth = true ∧ Binary64.le x.depth (Binary64.ofDecimal 1 2) = true) ∧
  (Binary64.le (Binary64.ofInt (-12)) x.bend = true ∧ Binary64.le x.bend (Binary64.ofDecimal 1199853515625 100000000000) = true) ∧
  (Binary64.le (Binary64.zero false) x.pan = true ∧ Binary64.le x.pan (Binary64.ofInt 1) = true)

/-- Whether a pending call keeps the host's duty to give a positive finite sample rate (R6, D37). -/
def legalRate : HostCall → Bool
  | .construct _ sampleRate _ _ => sampleRate.isPositive
  | .block _ _ => true

/-- The ranges of the registers whose type is wider than their range: every note in -1 to 127 (R34), the noise period below
2^31 (R25), a clock that is finite and positive (R21), a sample rate that is (R6, R22, D37), the ranges of the real-valued
channel fields (R38, R39, R41); and the host's part, that the pending constructions have legal rates. -/
structure State.RegistersInRange (s : State) : Prop where
  note : ∀ c : Fin 3, (s.chan c).noteInRange
  reals : ∀ c : Fin 3, (s.chan c).realsInRange
  noise : s.noisePeriod < 2 ^ 31
  clock : s.clockHz.isPositive = true
  rate : s.sampleRate.isPositive = true
  pending : ∀ call ∈ s.calls, legalRate call = true

/-- The shape of the block transaction: `CURSOR` at most `N`, `EV_IDX` at most the number of events (R42), every event below
`N` (R241), both buffers of length `N` (R43), and exactly the frames below `CURSOR` written (R62). -/
structure State.BlockShape (s : State) : Prop where
  cursor_le : s.cursor ≤ s.frames.toNat
  evIdx_le : s.evIdx ≤ s.events.length
  offsets : ∀ e ∈ s.events, e.offset.toNat < s.frames.toNat
  lenL : s.outL.length = s.frames.toNat
  lenR : s.outR.length = s.frames.toNat
  writtenL : ∀ i, i < s.frames.toNat → ((∃ x, s.outL[i]? = some (some x)) ↔ i < s.cursor)
  writtenR : ∀ i, i < s.frames.toNat → ((∃ x, s.outR[i]? = some (some x)) ↔ i < s.cursor)

/-- The offsets of an event sequence do not decrease (R241). -/
def Ordered (events : List Event) : Prop := events.Pairwise fun a b => a.offset.toNat ≤ b.offset.toNat

/-- A block in progress whose offsets do not decrease, with no coming event behind the cursor: what R245 rests on. -/
structure State.OnTime (s : State) : Prop where
  ordered : Ordered s.events
  ahead : ∀ j e, s.evIdx ≤ j → s.events[j]? = some e → s.cursor ≤ e.offset.toNat

/-- `k` steps of the machine, ending at the first fault or refusal. -/
def steps : (k : Nat) → State → Result
  | 0, s => .next s
  | k + 1, s => andThen (step s) (steps k)

/-- Whether a command is `RENDER`: one output frame (R243). -/
def ChipCmd.isRender : ChipCmd → Bool
  | .render _ _ _ => true
  | _ => false

/-- Whether a command is `CFG` (R310). -/
def ChipCmd.isCfg : ChipCmd → Bool
  | .cfg _ _ _ _ => true
  | _ => false

/-- Whether a command is `SHAPE`, which restarts the chip's envelope generator (R340). -/
def ChipCmd.isShape : ChipCmd → Bool
  | .shape _ => true
  | _ => false

/-- The MIDI channel number of live channel `k` (R31, R82). -/
def chanNo (k : Fin 3) : BitVec 4 := BitVec.ofNat 4 k.val

/-- The `chan` field of a property record for live channel `k` (R91). -/
def chanByte (k : Fin 3) : Byte := BitVec.ofNat 8 k.val

/-- The channel a channel message carries (R82); none for system messages, properties and internal operations. -/
def midiChannel : Instr → Option (BitVec 4)
  | .noteOff c _ _ => some c
  | .noteOnVel0 c _ => some c
  | .noteOn c _ _ => some c
  | .polyAftertouch c _ _ => some c
  | .ccModWheel c _ => some c
  | .ccMainVolume c _ => some c
  | .ccPan c _ => some c
  | .ccGp1Noise c _ => some c
  | .ccGp2EnvCoarse c _ => some c
  | .ccGp3EnvFine c _ => some c
  | .ccGp4EnvShape c _ => some c
  | .ccAllSoundOff c _ => some c
  | .ccResetControllers c _ => some c
  | .ccAllNotesOff c _ => some c
  | .ccOther c _ _ => some c
  | .programChange c _ => some c
  | .channelPressure c _ => some c
  | .pitchBend c _ _ => some c
  | _ => none

/-- One `TONE(c, PERIOD(c))` for each channel the gate passes, in the order 0, 1, 2 (R207, R284). -/
def State.tonesWhere (s : State) (gate : Fin 3 → Bool) : List ChipCmd :=
  ([0, 1, 2] : List (Fin 3)).flatMap fun k => if gate k then [.tone k (s.period k)] else []

end Sys2Proof.Machine
end

