-- ==== Sys2Proof/Certificates/Slice0/Obligations.lean ====
section
/-! DEFINITION. The statements about the model, each a proposition. `chanNo k` and `chanByte k` are the number of live channel `k`
in a message and in a property record. Where a docstring names a decision D<n>, the clause it names rests on the spec's own
decision; where it names a log entry, on the model's. -/

open Sys2Proof Sys2Proof.Machine

/-! ### Encoding and decoding -/

/-- Decoding the payload of a well-formed event gives that event back, at every value of every operand (R81 to R91). -/
def Obligations.DecodeOfEncode : Prop :=
  ∀ (i : Instr) (p : Payload), i.wellFormed = true → encode i = some p → decode p = .instr i

/-- What decodes is a well-formed event, and encodes to the very payload it came from: no two payloads share an instruction
(R81 to R91). -/
def Obligations.EncodeOfDecode : Prop :=
  ∀ (p : Payload) (i : Instr), decode p = .instr i → i.wellFormed = true ∧ encode i = some p

/-- A few words written out from the spec's encodings decode to the events they stand for (R86, R87, R90). -/
def Obligations.SpecWordsDecode : Prop :=
  decode (.midi [0x90, 0x2D, 0x7F]) = .instr (.noteOn 0 45 127) ∧
  decode (.midi [0xB0, 0x13, 0x70]) = .instr (.ccGp4EnvShape 0 112) ∧
  decode (.midi [0xC1, 0x05]) = .instr (.programChange 1 5) ∧
  decode (.midi [0xE0, 0x2B, 0x55]) = .instr (.pitchBend 0 43 85) ∧
  decode (.midi [0xFF]) = .instr .systemReset ∧
  ∀ v, decode (.prop 0x11 2 v) = .instr (.propLevel 2 v)

/-- Exactly the channel messages of a wrong length or with a data byte of 0x80 or more are malformed, and every payload that
starts with a byte below 0x80 (R84, R85, D29). -/
def Obligations.MalformedChannelMessages : Prop :=
  ∀ (b0 : Byte) (data : List Byte), b0.toNat < 0xF0 →
    ((∃ why, decode (.midi (b0 :: data)) = .malformed why) ↔
      (b0.toNat < 0x80 ∨ data.length ≠ (if 0xC0 ≤ b0.toNat ∧ b0.toNat < 0xE0 then 1 else 2) ∨
        ∃ b ∈ data, 0x80 ≤ b.toNat))

/-! ### The step -/

/-- When the next event is due and its payload decodes to `i`, the step is `exec i` followed by `EV_IDX + 1`. The effect is that
of R242 and R244; that one event is one step of the machine is the model's (log entry 1). -/
def Obligations.StepRunsDecodedEvent : Prop :=
  ∀ (s : State) (e : Event) (i : Instr), s.events[s.evIdx]? = some e → e.offset.toNat ≤ s.cursor →
    decode e.payload = .instr i →
    step s = andThen (exec i s) (fun t => .next { t with evIdx := t.evIdx + 1 })

/-- When the next event is due and its payload is malformed, the step does nothing but `EV_IDX + 1`. The effect is that of R244
and R246 (D29, D30); that one event is one step of the machine is the model's (log entry 1). -/
def Obligations.StepSkipsMalformedEvent : Prop :=
  ∀ (s : State) (e : Event) (why : DecodeError), s.events[s.evIdx]? = some e → e.offset.toNat ≤ s.cursor →
    decode e.payload = .malformed why → step s = .next { s with evIdx := s.evIdx + 1 }

/-- The word `withFetchWord` places is run, as the instruction the decoder reads from it, by the very next step. This is the
model's way to load one event (log entry 2). -/
def Obligations.FetchWordRunsNext : Prop :=
  ∀ (s : State) (nbits w : Nat) (i : Instr), decodeTableWord nbits w = some i →
    step (s.withFetchWord nbits w) =
      andThen (exec i (s.withFetchWord nbits w)) (fun t => .next { t with evIdx := t.evIdx + 1 })

/-- An idle block with no pending call keeps every register (R313; an idle step is the model's, log entry 1). -/
def Obligations.IdleKeepsEverything : Prop :=
  ∀ s : State, s.isIdle = true → s.fault = false → s.calls = [] → step s = .next s

/-! ### Ignored input -/

/-- A channel message for channel 3 to 15 is ignored entirely, the global controllers' messages too; System Reset is not gated
and silences every channel (R83; D4 for System Reset). -/
def Obligations.ChannelGate : Prop :=
  (∀ (i : Instr) (c : BitVec 4) (s : State), midiChannel i = some c → 3 ≤ c.toNat → exec i s = .next s) ∧
  ∀ s : State, ∃ t, exec .systemReset s = .next t ∧ ∀ k : Fin 3, (t.chan k).note = -1

/-- Input that no rule lists changes nothing: polyphonic aftertouch, channel pressure, other controllers, other system messages
(R246, R160, D30), and a record whose key is not in the key map, which decodes to `PROP_UNKNOWN` (R261). -/
def Obligations.UnlistedInputIgnored : Prop :=
  ∀ s : State,
    (∀ c n p, exec (.polyAftertouch c n p) s = .next s) ∧
    (∀ c p, exec (.channelPressure c p) s = .next s) ∧
    (∀ c k v, exec (.ccOther c k v) s = .next s) ∧
    (∀ status data, exec (.systemOther status data) s = .next s) ∧
    ∀ (key chan : Byte) (value : PropValue), exec (.propUnknown key chan value) s = .next s ∧
      (key.toNat ∉ [0x01, 0x02, 0x03, 0x04, 0x05, 0x06, 0x07, 0x08, 0x10, 0x11, 0x12, 0x13, 0x14] →
        decode (.prop key chan value) = .instr (.propUnknown key chan value))

/-- A property record with a wrong value type, a channel of 3 or more, or a value outside the key's legal range changes nothing
(R247, D24). -/
def Obligations.IllegalRecordsIgnored : Prop :=
  ∀ (chan : Byte) (value : PropValue) (s : State),
    ((∀ x, value = .real x → (x.mul (Binary64.ofInt 1000000)).isPositive = false) →
      exec (.propClock chan value) s = .next s) ∧
    ((∀ b, value ≠ .bool b) →
      exec (.propMode chan value) s = .next s ∧ exec (.propEnvHold chan value) s = .next s ∧
      exec (.propEnvAlternate chan value) s = .next s ∧ exec (.propEnvAttack chan value) s = .next s ∧
      exec (.propEnvContinue chan value) s = .next s) ∧
    ((∀ v, value = .int v → v.toInt < 0) → exec (.propNoisePeriod chan value) s = .next s) ∧
    ((∀ v, value = .int v → v.toInt < 0 ∨ 65535 < v.toInt) → exec (.propEnvPeriod chan value) s = .next s) ∧
    ((3 ≤ chan.toNat ∨ ∀ v, value = .int v → v.toInt < 0) →
      exec (.propTonePeriod chan value) s = .next s ∧ exec (.propLevel chan value) s = .next s) ∧
    ((3 ≤ chan.toNat ∨ ∀ b, value ≠ .bool b) →
      exec (.propEnvOn chan value) s = .next s ∧ exec (.propToneOn chan value) s = .next s ∧
      exec (.propNoiseOn chan value) s = .next s)

/-- Every event, with any operands and in any state, has a next state: no event faults and none is refused (R92, R300). -/
def Obligations.EveryEventCompletes : Prop :=
  ∀ (i : Instr) (s : State), i.isEvent = true → ∃ t, exec i s = .next t

/-! ### Note events -/

/-- `NOTE_OFF` (R123): the channel's own note is silenced and cleared; any other note-off does nothing. All else stays. -/
def Obligations.NoteOffResult : Prop :=
  ∀ (k : Fin 3) (n v : BitVec 7) (s : State),
    exec (.noteOff (chanNo k) n v) s = .next
      (if (s.chan k).note = (n.toNat : Int) then
        { s with
          ch := s.ch.set k { s.chan k with note := -1 }
          chipTrace := s.chipTrace ++ [.vol k 0] }
      else s)

/-- `NOTE_ON` under both policies (R124, R125): rejected on a sounding channel under `REJECT_WHILE_SOUNDING` (D12); otherwise
note and velocity are stored, and `VOL`, `SHAPE`, `TONE` are sent in that order (D40), the tone at the current counter with the
LFO term (D11). All else stays. -/
def Obligations.NoteOnResult : Prop :=
  ∀ (k : Fin 3) (n v : BitVec 7) (s : State),
    exec (.noteOn (chanNo k) n v) s = .next
      (if s.params.noteOnPolicy = .rejectWhileSounding ∧ (s.chan k).note ≠ -1 then s
      else
        { s with
          ch := s.ch.set k { s.chan k with note := n.toNat, vel := v }
          chipTrace := s.chipTrace ++
            [.vol k (level (s.chan k).volume v), .shape s.envShape,
              .tone k ({ s.chan k with note := n.toNat, vel := v }.period s.params s.clockHz s.sampleCtr)] })

/-- A note-on with velocity 0 is the note-on of velocity 0 under `AS_NOTE_ON`, and the note-off of its note under `AS_NOTE_OFF`
(R88, R126, D13). -/
def Obligations.VelocityZeroNoteOn : Prop :=
  ∀ (c : BitVec 4) (n : BitVec 7) (s : State), ∃ t, exec (.noteOnVel0 c n) s = .next t ∧
    (s.params.vel0Policy = .asNoteOn → exec (.noteOn c n 0) s = .next t) ∧
    (s.params.vel0Policy = .asNoteOff → exec (.noteOff c n 0) s = .next t)

/-- `PROGRAM_CHANGE` (R127): mixer from the two low bits, envelope from 4 up, the channel silenced unconditionally; `VOL`, `MIXER`
and `ENVON` sent (D14). All else stays. -/
def Obligations.ProgramChangeResult : Prop :=
  ∀ (k : Fin 3) (p : BitVec 7) (s : State),
    let tone := decide (p.toNat % 2 = 0)
    let noise := decide (p.toNat % 4 = 1 ∨ p.toNat % 4 = 2)
    let env := decide (4 ≤ p.toNat)
    exec (.programChange (chanNo k) p) s = .next
      { s with
        ch := s.ch.set k { s.chan k with toneEn := tone, noiseEn := noise, envOn := env, note := -1 }
        chipTrace := s.chipTrace ++ [.vol k 0, .mixer k tone noise, .envOn k env] }

/-- `CC_ALL_SOUND_OFF` and `CC_ALL_NOTES_OFF` (R128, R162, R163; D3 for the two controllers): a sounding channel is silenced and
its note cleared; otherwise nothing happens. -/
def Obligations.AllOffResult : Prop :=
  ∀ (k : Fin 3) (v : BitVec 7) (s : State),
    let t : State :=
      if (s.chan k).note = -1 then s
      else
        { s with
          ch := s.ch.set k { s.chan k with note := -1 }
          chipTrace := s.chipTrace ++ [.vol k 0] }
    exec (.ccAllSoundOff (chanNo k) v) s = .next t ∧ exec (.ccAllNotesOff (chanNo k) v) s = .next t

/-- `SYSTEM_RESET` (R129, R47): the channel and global registers it writes, its 15 commands in order (D18, D17), and nothing else:
`SAMPLE_CTR`, `BEND`, `VEL`, `CLOCK_HZ`, `MODE` and the status bits stay (D18). -/
def Obligations.SystemResetResult : Prop :=
  ∀ s : State, ∃ t, exec .systemReset s = .next t ∧
    (∀ k : Fin 3, t.chan k =
      { s.chan k with
        note := -1, volume := 12, envOn := false, depth := ⟨0#64⟩, toneEn := true, noiseEn := false
        pan := ⟨0x3FE0000000000000#64⟩ }) ∧
    t = { s with
      ch := t.ch, noisePeriod := 0, envPeriod := 0, envShape := 0
      chipTrace := s.chipTrace ++
        [.vol 0 0, .mixer 0 true false, .envOn 0 false, .pan 0 ⟨0x3FE0000000000000#64⟩ .equalPower,
          .vol 1 0, .mixer 1 true false, .envOn 1 false, .pan 1 ⟨0x3FE0000000000000#64⟩ .equalPower,
          .vol 2 0, .mixer 2 true false, .envOn 2 false, .pan 2 ⟨0x3FE0000000000000#64⟩ .equalPower,
          .noise 0, .envPer 0, .shape 0] }

/-- `LEVEL` (R121): the rounded binary64 quotient is the integer form, from 0 to 15, and the volume itself at velocity 127. -/
def Obligations.LevelIntegerForm : Prop :=
  ∀ (vol : BitVec 4) (vel : BitVec 7),
    level vol vel = (2 * vol.toNat * vel.toNat + 127) / 254 ∧ level vol vel ≤ 15 ∧ level vol 127 = vol.toNat

/-! ### Controllers -/

/-- `CC_RESET_CONTROLLERS` (R161): if sounding, `TONE` and then the level (D40, D11); no register is written (D34). -/
def Obligations.ResetControllersResult : Prop :=
  ∀ (k : Fin 3) (v : BitVec 7) (s : State),
    exec (.ccResetControllers (chanNo k) v) s = .next
      (if (s.chan k).note = -1 then s
      else
        { s with chipTrace := s.chipTrace ++
            [.tone k (s.period k), .vol k (level (s.chan k).volume (s.chan k).vel)] })

/-- `CC_MOD_WHEEL` (R164): the depth is `fl(fl(v / 127.0) * 0.5)`, and a sounding channel gets its tone recomputed at once with the
new depth. All else stays. -/
def Obligations.ModWheelResult : Prop :=
  ∀ (k : Fin 3) (v : BitVec 7) (s : State),
    let x := { s.chan k with
      depth := ((Binary64.ofInt v.toNat).div (Binary64.ofInt 127)).mul ⟨0x3FE0000000000000#64⟩ }
    exec (.ccModWheel (chanNo k) v) s = .next
      { s with
        ch := s.ch.set k x
        chipTrace := s.chipTrace ++
          if x.note = -1 then [] else [.tone k (x.period s.params s.clockHz s.sampleCtr)] }

/-- `CC_PAN` (R165): the pan is `fl(max(0, v - 1) / 126.0)`, sent with the equal-power law (D17), sounding or not. All else stays. -/
def Obligations.PanResult : Prop :=
  ∀ (k : Fin 3) (v : BitVec 7) (s : State),
    let pan := (Binary64.ofInt (if v.toNat = 0 then 0 else (v.toNat : Int) - 1)).div (Binary64.ofInt 126)
    exec (.ccPan (chanNo k) v) s = .next
      { s with
        ch := s.ch.set k { s.chan k with pan := pan }
        chipTrace := s.chipTrace ++ [.pan k pan .equalPower] }

/-- `CC_MAIN_VOLUME` (R166): the volume is `v >> 3`, and a sounding channel gets its level again. All else stays. -/
def Obligations.MainVolumeResult : Prop :=
  ∀ (k : Fin 3) (v : BitVec 7) (s : State),
    let x := { s.chan k with volume := BitVec.ofNat 4 (v.toNat / 8) }
    exec (.ccMainVolume (chanNo k) v) s = .next
      { s with
        ch := s.ch.set k x
        chipTrace := s.chipTrace ++ if x.note = -1 then [] else [.vol k (level x.volume x.vel)] }

/-- `CC_GP1_NOISE` (R167): the noise period is `v >> 2`, sent at once (D25). All else stays. -/
def Obligations.NoiseControllerResult : Prop :=
  ∀ (k : Fin 3) (v : BitVec 7) (s : State),
    exec (.ccGp1Noise (chanNo k) v) s = .next
      { s with noisePeriod := v.toNat / 4, chipTrace := s.chipTrace ++ [.noise (v.toNat / 4)] }

/-- `CC_GP2_ENV_COARSE` (R168): bits 6 to 0 are kept, bits 13 to 7 are `v`, bits 15 and 14 are cleared; the chip gets the
corrected value, the register the uncorrected one (D15). All else stays. -/
def Obligations.EnvelopeCoarseResult : Prop :=
  ∀ (k : Fin 3) (v : BitVec 7) (s : State),
    let p := v.toNat * 128 + s.envPeriod.toNat % 128
    exec (.ccGp2EnvCoarse (chanNo k) v) s = .next
      { s with
        envPeriod := BitVec.ofNat 16 p
        chipTrace := s.chipTrace ++ [.envPer (envCorr s.params p)] }

/-- `CC_GP3_ENV_FINE` (R170): bits 15 to 7 are kept and bits 6 to 0 are `v`; the chip gets the uncorrected value (D15). All else
stays. -/
def Obligations.EnvelopeFineResult : Prop :=
  ∀ (k : Fin 3) (v : BitVec 7) (s : State),
    let p := s.envPeriod.toNat / 128 * 128 + v.toNat
    exec (.ccGp3EnvFine (chanNo k) v) s = .next
      { s with
        envPeriod := BitVec.ofNat 16 p
        chipTrace := s.chipTrace ++ [.envPer p] }

/-- `CC_GP4_ENV_SHAPE` (R171): the shape is `v[6:4]` with `CONTINUE` set, sent at once even if unchanged (D25). All else stays. -/
def Obligations.EnvelopeShapeResult : Prop :=
  ∀ (k : Fin 3) (v : BitVec 7) (s : State),
    let shape := BitVec.ofNat 4 (v.toNat / 16 + 8)
    exec (.ccGp4EnvShape (chanNo k) v) s = .next
      { s with envShape := shape, chipTrace := s.chipTrace ++ [.shape shape] }

/-- Coarse then fine, and fine then coarse, leave the same `ENV_PERIOD`; the command that comes last carries the uncorrected
period in the first order and the corrected one in the second (R168, R170, R343; D15). Whether the two periods differ is not
said here: R343 has them differ from a stored value of 9630 up, under the reference `F_EXP`. -/
def Obligations.CoarseFineOrder : Prop :=
  ∀ (j k : Fin 3) (a b : BitVec 7) (s : State),
    let p := a.toNat * 128 + b.toNat
    (∃ t u, exec (.ccGp2EnvCoarse (chanNo j) a) s = .next t ∧ exec (.ccGp3EnvFine (chanNo k) b) t = .next u ∧
      u.envPeriod.toNat = p ∧ u.chipTrace.getLast? = some (.envPer p)) ∧
    (∃ t u, exec (.ccGp3EnvFine (chanNo k) b) s = .next t ∧ exec (.ccGp2EnvCoarse (chanNo j) a) t = .next u ∧
      u.envPeriod.toNat = p ∧ u.chipTrace.getLast? = some (.envPer (envCorr s.params p)))

/-- The correction (R169): whatever the library it is an integer at least `p`, and under the reference `F_EXP` (D7) it takes the
values of the table, 65589 at 16383 included, for any policies. -/
def Obligations.EnvelopeCorrectionTable : Prop :=
  (∀ (params : Params) (p : Nat), p ≤ envCorr params p) ∧
  ∀ (a : NoteOnPolicy) (b : Vel0Policy),
    ([0, 8192, 9629, 9630, 12288, 12800, 14336, 15360, 16128, 16256, 16383] : List Nat).map
        (envCorr ⟨a, b, .reference⟩) =
      [0, 8192, 9629, 9631, 12358, 12959, 16197, 24937, 48850, 56414, 65589]

/-! ### Pitch -/

/-- `PITCH_BEND` (R206): the bend is `fl(fl((v - 8192) / 8192.0) * 12.0)` for the 14-bit `v`, and a sounding channel gets its tone
recomputed with it. All else stays. -/
def Obligations.PitchBendResult : Prop :=
  ∀ (k : Fin 3) (lsb msb : BitVec 7) (s : State),
    let v : Int := msb.toNat * 128 + lsb.toNat
    let x := { s.chan k with
      bend := ((Binary64.ofInt (v - 8192)).div (Binary64.ofInt 8192)).mul (Binary64.ofInt 12) }
    exec (.pitchBend (chanNo k) lsb msb) s = .next
      { s with
        ch := s.ch.set k x
        chipTrace := s.chipTrace ++
          if x.note = -1 then [] else [.tone k (x.period s.params s.clockHz s.sampleCtr)] }

/-- The LFO and the period under every library. The phase is the low 13 bits of the counter, so a period repeats 8192 samples
on, across the counter's wrap too (R200, R209; D6). The LFO lies in [-1, 1] (R201). It is 1 at phase 2048 and -1 at phase 6144:
R201 gives these values under the reference `F_SIN`, and that another library's sine has them too is the model's choice (log entry
6), made so that the semitone number peaks there as R209 says. At semitone 45 the power is 1, so at a legal clock the period is
`RHU(CLOCK_HZ / 3520.0)` (R203). With a zero depth the period does not depend on the counter (R208). -/
def Obligations.PeriodRepeats : Prop :=
  (∀ ctr : BitVec 32, phase ctr = (ctr.extractLsb' 0 13).toNat) ∧
  (∀ (x : Channel) (p : Params) (clockHz : Binary64) (ctr : BitVec 32),
    x.period p clockHz (ctr + 8192) = x.period p clockHz ctr) ∧
  (∀ (p : Params) (ctr : BitVec 32),
    Binary64.le (Binary64.ofInt (-1)) (lfo p ctr) = true ∧ Binary64.le (lfo p ctr) (Binary64.ofInt 1) = true) ∧
  (∀ (p : Params) (ctr : BitVec 32), phase ctr = 2048 → lfo p ctr = Binary64.ofInt 1) ∧
  (∀ (p : Params) (ctr : BitVec 32), phase ctr = 6144 → lfo p ctr = Binary64.ofInt (-1)) ∧
  (∀ (x : Channel) (p : Params) (clockHz : Binary64) (ctr : BitVec 32), clockHz.isPositive = true →
    semitone p x ctr = Binary64.ofInt 45 → (clockHz.div (Binary64.ofInt 3520)).rhu = some (x.period p clockHz ctr : Int)) ∧
  ∀ (x : Channel) (p : Params) (clockHz : Binary64) (ctr ctr' : BitVec 32), x.depth.isZero = true →
    x.period p clockHz ctr = x.period p clockHz ctr'

/-- Periods under the reference functions at 2 MHz: the notes of R203's table, the LFO's peaks of R209 on note 45 at depth 0.5, and
the largest and smallest periods of R204, for any policies. -/
def Obligations.ReferencePeriods : Prop :=
  ∀ (a : NoteOnPolicy) (b : Vel0Policy),
    let period (note : Int) (bend depth : Binary64) (ctr : BitVec 32) : Nat :=
      { Channel.powerOn with note := note, bend := bend, depth := depth }.period ⟨a, b, .reference⟩
        ⟨0x413E848000000000#64⟩ ctr
    ([0, 21, 33, 45, 57, 60, 69, 81, 127] : List Int).map (fun n => period n ⟨0#64⟩ ⟨0#64⟩ 0) =
        [7644, 2273, 1136, 568, 284, 239, 142, 71, 5] ∧
    ([0, 54, 55, 2048, 4096, 6144] : List (BitVec 32)).map (period 45 ⟨0#64⟩ ⟨0x3FE0000000000000#64⟩) =
        [568, 568, 567, 552, 568, 585] ∧
    period 0 (Binary64.ofInt (-12)) ⟨0x3FE0000000000000#64⟩ 6144 = 15737 ∧
    period 127 (bendSemitones 127 127) ⟨0x3FE0000000000000#64⟩ 2048 = 2

/-- `MOD_TICK` (R207): one `TONE` for each sounding channel whose depth is not zero, in the order 0, 1, 2 (D9, D10), each period at
the registers before the tick. No register is written. -/
def Obligations.ModTickResult : Prop :=
  ∀ s : State, exec .modTick s = .next
    { s with chipTrace := s.chipTrace ++
        s.tonesWhere (fun k => (s.chan k).note != -1 && !(s.chan k).depth.isZero) }

/-! ### Property writes -/

/-- `PROP_NOISE_PERIOD` (R250): every int32 from 0 up is stored and sent at once (R248, D25), and nothing else changes; a negative
one is ignored (R247, D24). -/
def Obligations.NoisePropertyResult : Prop :=
  ∀ (chan : Byte) (v : BitVec 32) (s : State),
    exec (.propNoisePeriod chan (.int v)) s = .next
      (if 0 ≤ v.toInt then { s with noisePeriod := v.toNat, chipTrace := s.chipTrace ++ [.noise v.toNat] } else s)

/-- `PROP_ENV_PERIOD` (R251): every value from 0 to 65535 (D24) is stored and sent at once (R248, D25), uncorrected (D15). All else
stays. -/
def Obligations.EnvelopePropertyResult : Prop :=
  ∀ (chan : Byte) (p : BitVec 16) (s : State),
    exec (.propEnvPeriod chan (.int (p.setWidth 32))) s = .next
      { s with envPeriod := p, chipTrace := s.chipTrace ++ [.envPer p.toNat] }

/-- The four shape-bit records (R252 to R255; bit positions D16): the named bit takes the value, the other three stay, and the
shape is sent, changed or not (D25). All else stays. -/
def Obligations.ShapeBitResults : Prop :=
  ∀ w ∈ ([(Instr.propEnvHold, 0), (Instr.propEnvAlternate, 1), (Instr.propEnvAttack, 2), (Instr.propEnvContinue, 3)] :
      List ((Byte → PropValue → Instr) × Nat)),
    ∀ (chan : Byte) (b : Bool) (s : State), ∃ shape : BitVec 4,
      (∀ j, j < 4 → shape.getLsbD j = if j = w.2 then b else s.envShape.getLsbD j) ∧
      exec (w.1 chan (.bool b)) s = .next { s with envShape := shape, chipTrace := s.chipTrace ++ [.shape shape] }

/-- `PROP_TONE_PERIOD` and `PROP_LEVEL` (R256, R257): every int32 from 0 up goes to the chip, sounding or not (R248, D25), and no
register is written; a negative one is ignored (R247, D24). -/
def Obligations.OverrideResults : Prop :=
  ∀ (k : Fin 3) (v : BitVec 32) (s : State),
    exec (.propTonePeriod (chanByte k) (.int v)) s = .next
      (if 0 ≤ v.toInt then { s with chipTrace := s.chipTrace ++ [.tone k v.toNat] } else s) ∧
    exec (.propLevel (chanByte k) (.int v)) s = .next
      (if 0 ≤ v.toInt then { s with chipTrace := s.chipTrace ++ [.vol k v.toNat] } else s)

/-- `PROP_ENV_ON`, `PROP_TONE_ON` and `PROP_NOISE_ON` (R258 to R260; the key of the first: C3): the flag is stored and sent at
once, sounding or not (R248, D25), a mixer command with the other flag as stored. All else stays. -/
def Obligations.ChannelFlagResults : Prop :=
  ∀ (k : Fin 3) (b : Bool) (s : State),
    exec (.propEnvOn (chanByte k) (.bool b)) s = .next
      { s with
        ch := s.ch.set k { s.chan k with envOn := b }
        chipTrace := s.chipTrace ++ [.envOn k b] } ∧
    exec (.propToneOn (chanByte k) (.bool b)) s = .next
      { s with
        ch := s.ch.set k { s.chan k with toneEn := b }
        chipTrace := s.chipTrace ++ [.mixer k b (s.chan k).noiseEn] } ∧
    exec (.propNoiseOn (chanByte k) (.bool b)) s = .next
      { s with
        ch := s.ch.set k { s.chan k with noiseEn := b }
        chipTrace := s.chipTrace ++ [.mixer k (s.chan k).toneEn b] }

/-! ### Reconfiguration -/

/-- `PROP_CLOCK` (R281, R280, R284, R283): a legal clock is stored in Hz (D21), one `CFG` is sent and its answer, whatever it is,
goes to `CFG_INVALID`, and every sounding channel is retuned at the new clock. All else stays. How an answer is drawn is the
model's (log entry 3). -/
def Obligations.ClockPropertyResult : Prop :=
  ∀ (chan : Byte) (x : Binary64) (s : State),
    let hz := x.mul (Binary64.ofInt 1000000)
    hz.isPositive = true →
    exec (.propClock chan (.real x)) s = .next
      { s with
        clockHz := hz
        cfgInvalid := !s.cfgOk
        cfgAnswers := s.cfgAnswers.tail
        draws := s.draws + 1
        chipTrace := s.chipTrace ++ .cfg s.mode hz s.sampleRate s.cfgOk ::
          { s with clockHz := hz }.tonesWhere (fun k => (s.chan k).note != -1) }

/-- `PROP_MODE` (R282, R280, R284): the mode is stored (0 is AY, 1 is YM: D20), changed or not, and the same reconfiguration runs.
All else stays. How an answer is drawn is the model's (log entry 3). -/
def Obligations.ModePropertyResult : Prop :=
  ∀ (chan : Byte) (b : Bool) (s : State),
    let mode := if b then ChipMode.ym else ChipMode.ay
    exec (.propMode chan (.bool b)) s = .next
      { s with
        mode := mode
        cfgInvalid := !s.cfgOk
        cfgAnswers := s.cfgAnswers.tail
        draws := s.draws + 1
        chipTrace := s.chipTrace ++ .cfg mode s.clockHz s.sampleRate s.cfgOk ::
          s.tonesWhere (fun k => (s.chan k).note != -1) }

/-! ### Rendering and blocks -/

/-- `RENDER_STEP` (R243, order D9): the per-sample tones, then `RENDER` with its answer written to frame `CURSOR`, then both counters
go up by one, `SAMPLE_CTR` modulo 2^32. All else stays. How an answer is drawn is the model's (log entry 3). -/
def Obligations.RenderStepResult : Prop :=
  ∀ s : State, s.cursor < s.frames.toNat →
    exec .renderStep s = .next
      { s with
        chipTrace := s.chipTrace ++
          s.tonesWhere (fun k => (s.chan k).note != -1 && !(s.chan k).depth.isZero) ++
          [.render s.removeDc s.samplePair.1 s.samplePair.2]
        renderAnswers := s.renderAnswers.tail
        draws := s.draws + 1
        outL := s.outL.set s.cursor (some s.samplePair.1)
        outR := s.outR.set s.cursor (some s.samplePair.2)
        cursor := s.cursor + 1
        sampleCtr := s.sampleCtr + 1 }

/-- The model's choice (log entry 14): with no frame left a render step stops, where R241 says the source defines nothing. -/
def Obligations.RenderStepNeedsFrame : Prop :=
  ∀ s : State, s.frames.toNat ≤ s.cursor → exec .renderStep s = .fault .outsideBuffer

/-- The host contract (R241, R304; D28): the first event at or beyond `N` refuses the whole block, `FAULT` is set and nothing else
but the reported index changes; and with `FAULT` set neither a block nor an idle step has a next state. That the refusal is
itself a next state is the model's (log entry 15). -/
def Obligations.HostContractFault : Prop :=
  (∀ (n : BitVec 32) (es : List Event) (s : State) (j : Nat) (e : Event), s.fault = false →
    es[j]? = some e → n.toNat ≤ e.offset.toNat →
    (∀ i d, i < j → es[i]? = some d → d.offset.toNat < n.toNat) →
    exec (.block n es) s = .next { s with fault := true, faultIndex := j }) ∧
  (∀ (n : BitVec 32) (es : List Event) (s : State), s.fault = true →
    exec (.block n es) s = .fault (.hostContract s.faultIndex)) ∧
  ∀ s : State, s.fault = true → s.isIdle = true → step s = .fault (.hostContract s.faultIndex)

/-- A block that keeps the contract completes (R242, R243, R44): every event is taken, exactly `N` frames are rendered and written,
`SAMPLE_CTR` goes up by `N` modulo 2^32, and the trace only grows. A block of no frames, which the contract leaves no event,
changes no state (R249). -/
def Obligations.BlockCompletes : Prop :=
  ∀ (n : BitVec 32) (es : List Event) (s : State), s.fault = false →
    (∀ e ∈ es, e.offset.toNat < n.toNat) →
    ∃ t new, exec (.block n es) s = .next t ∧
      t.fault = false ∧ t.sampleCtr = s.sampleCtr + n ∧
      t.chipTrace = s.chipTrace ++ new ∧ new.countP ChipCmd.isRender = n.toNat ∧
      (n = 0 → t = s) ∧
      (n ≠ 0 → t.frames = n ∧ t.cursor = n.toNat ∧ t.events = es ∧ t.evIdx = es.length ∧
        t.outL.length = n.toNat ∧ t.outR.length = n.toNat ∧
        ∀ i, i < n.toNat → (∃ x, t.outL[i]? = some (some x)) ∧ (∃ x, t.outR[i]? = some (some x)))

/-- The machine's steps carry out R242: from an idle block whose next call is a block that keeps the contract, one step to open it,
one per frame and one per event reach exactly the state that the whole transaction answers, and it is idle again. Cutting the
transaction into these steps is the model's (log entry 1), and so is the queue the idle step takes its next call from (log
entry 2). -/
def Obligations.StepsCarryOutBlock : Prop :=
  ∀ (n : BitVec 32) (es : List Event) (rest : List HostCall) (s : State),
    s.isIdle = true → s.fault = false → s.calls = .block n es :: rest →
    (∀ e ∈ es, e.offset.toNat < n.toNat) →
    ∃ t, exec (.block n es) { s with calls := rest } = .next t ∧
      steps (1 + n.toNat + es.length) s = .next t ∧ t.isIdle = true

/-- The empty block changes no state (R249), and as a pending call it only leaves the queue, which is the model's (log entry 2).
A block of no frames with an event is refused (R241, R249); that the refusal is a next state with `FAULT` at 1 and the reported
index 0 is the model's too (log entry 15). -/
def Obligations.EmptyBlock : Prop :=
  ∀ s : State, s.fault = false →
    exec (.block 0 []) s = .next s ∧
    (∀ rest, s.isIdle = true → s.calls = .block 0 [] :: rest → step s = .next { s with calls := rest }) ∧
    ∀ e es, exec (.block 0 (e :: es)) s = .next { s with fault := true, faultIndex := 0 }

/-- What the observation port does not show carries nothing across blocks (R42, R312; D33): two states that the port shows alike,
with the same parameters and the same chip answers to come, answer a block alike, and are then alike in the same ways, so that
the statement applies again to the next block. How an answer is drawn is the model's (log entry 3), and so are the parameters in
the state (log entry 5). -/
def Obligations.BlockSeesObservationOnly : Prop :=
  ∀ (n : BitVec 32) (es : List Event) (s t s' : State), s.observation = t.observation → s.params = t.params →
    s.cfgAnswers = t.cfgAnswers → s.renderAnswers = t.renderAnswers → s.draws = t.draws →
    exec (.block n es) s = .next s' →
    ∃ t', exec (.block n es) t = .next t' ∧ s'.observation = t'.observation ∧ s'.params = t'.params ∧
      s'.cfgAnswers = t'.cfgAnswers ∧ s'.renderAnswers = t'.renderAnswers ∧ s'.draws = t'.draws

/-- Events are applied on time (R245, which the spec derives from R242): in a block whose offsets do not decrease, an event is
applied when the cursor is exactly at its offset, and the block stays on time through every step. -/
def Obligations.EventsOnTime : Prop :=
  (∀ (s : State) (n : BitVec 32) (es : List Event), Ordered es → (s.openBlock n es).OnTime) ∧
  ∀ s t : State, s.OnTime → s.isIdle = false → step s = .next t →
    t.OnTime ∧
    (t.evIdx = s.evIdx + 1 → ∃ e, s.events[s.evIdx]? = some e ∧ s.cursor = e.offset.toNat)

/-! ### Power-on -/

/-- `CONSTRUCT` with the capability (R330, R46; D19): every register at its power-on value, the host's rate and DC flag stored, one
`CFG` sent, its answer in `CFG_INVALID`. The host's queues stay, and one chip answer is used up (log entries 3, 16). -/
def Obligations.ConstructResult : Prop :=
  ∀ (rate : Binary64) (dc : Bool) (p : Params) (s : State), ∃ t, exec (.construct true rate dc p) s = .next t ∧
    t.clockHz = Binary64.ofInt 2000000 ∧ t.sampleRate = rate ∧ t.mode = .ay ∧ t.removeDc = dc ∧
    t.noisePeriod = 0 ∧ t.envPeriod = 0 ∧ t.envShape = 0 ∧ t.sampleCtr = 0 ∧ t.fault = false ∧
    (∀ k : Fin 3, t.chan k = ⟨0, 0, 0, false, ⟨0#64⟩, ⟨0#64⟩, false, false, ⟨0#64⟩⟩) ∧
    t.frames = 0 ∧ t.cursor = 0 ∧ t.evIdx = 0 ∧
    t.chipTrace = [.cfg .ay (Binary64.ofInt 2000000) rate s.cfgOk] ∧ t.cfgInvalid = !s.cfgOk ∧
    t.isIdle = true ∧ t.params = p ∧ t.calls = s.calls ∧ t.cfgAnswers = s.cfgAnswers.tail ∧
    t.renderAnswers = s.renderAnswers ∧ t.draws = s.draws + 1

/-- `CONSTRUCT` without the capability gives no state at all (R331, R303). -/
def Obligations.ConstructNeedsCapability : Prop :=
  ∀ (rate : Binary64) (dc : Bool) (p : Params) (s : State),
    exec (.construct false rate dc p) s = .refused .hostCapabilityMissing

/-- The state after power-on (R46): the registers the spec gives a value, every channel sounding its zeroed note (R332), an idle
block, and the construction `CFG` alone in the trace. -/
def Obligations.ResetRegisters : Prop :=
  State.reset.clockHz = Binary64.ofInt 2000000 ∧ State.reset.mode = .ay ∧ State.reset.noisePeriod = 0 ∧
  State.reset.envPeriod = 0 ∧ State.reset.envShape = 0 ∧ State.reset.sampleCtr = 0 ∧ State.reset.fault = false ∧
  (∀ k : Fin 3, State.reset.chan k = ⟨0, 0, 0, false, ⟨0#64⟩, ⟨0#64⟩, false, false, ⟨0#64⟩⟩ ∧
    State.reset.sounding k = true) ∧
  State.reset.frames = 0 ∧ State.reset.cursor = 0 ∧ State.reset.evIdx = 0 ∧ State.reset.isIdle = true ∧
  ∃ ok, State.reset.cfgInvalid = !ok ∧
    State.reset.chipTrace = [.cfg .ay (Binary64.ofInt 2000000) State.reset.sampleRate ok]

/-! ### Invariants -/

/-- Every step keeps the register ranges: notes in -1 to 127 (R34), the noise period below 2^31 (R25), the clock and the sample rate
finite and positive (R21; R6, R22, D37), depth, bend and pan in their ranges (R39, R38, R41). The ranges take in the host's duty
of D37, that the constructions it has pending in the model's queue (log entry 2) have legal rates. -/
def Obligations.StepKeepsRegisterRanges : Prop :=
  ∀ s t : State, s.RegistersInRange → step s = .next t → t.RegistersInRange

/-- Every step keeps the shape of the block transaction: `CURSOR` at most `N` (R42), every event below `N` (R241), both buffers of
length `N` (R43), and exactly the frames below `CURSOR` written (R62). -/
def Obligations.StepKeepsBlockShape : Prop :=
  ∀ s t : State, s.BlockShape → step s = .next t → t.BlockShape

/-- Both invariants hold after power-on (R46). The sample rate is free among the legal ones (log entry 4), and the queue of calls
is empty (log entry 12). -/
def Obligations.ResetMeetsInvariants : Prop := State.reset.RegistersInRange ∧ State.reset.BlockShape

/-! ### Rules over every event -/

/-- No event writes `SAMPLE_CTR`, `SAMPLE_RATE`, `REMOVE_DC`, `FAULT`, the block-local registers, the output buffers or the event
sequence (R28, R22, R24, R42, R43, R75; the writes the spec decides: D18, D37, D22), nor the host's queues, parameters and
`RENDER` answers. -/
def Obligations.EventsLeaveAlone : Prop :=
  ∀ (i : Instr) (s t : State), i.isEvent = true → exec i s = .next t →
    t.sampleCtr = s.sampleCtr ∧ t.sampleRate = s.sampleRate ∧ t.removeDc = s.removeDc ∧ t.fault = s.fault ∧
    t.frames = s.frames ∧ t.cursor = s.cursor ∧ t.evIdx = s.evIdx ∧ t.outL = s.outL ∧ t.outR = s.outR ∧
    t.events = s.events ∧ t.calls = s.calls ∧ t.params = s.params ∧ t.renderAnswers = s.renderAnswers ∧
    t.faultIndex = s.faultIndex

/-- Which events may change a register: the clock, the mode and `CFG_INVALID` (R21, R23, R29), and in each channel the velocity,
volume, bend, depth and pan (R35, R36, R38, R39, R41). -/
def Obligations.SoleWriters : Prop :=
  ∀ (i : Instr) (s t : State), i.isEvent = true → exec i s = .next t →
    (t.clockHz ≠ s.clockHz → ∃ c v, i = .propClock c v) ∧
    (t.mode ≠ s.mode → ∃ c v, i = .propMode c v) ∧
    (t.cfgInvalid ≠ s.cfgInvalid → (∃ c v, i = .propClock c v) ∨ ∃ c v, i = .propMode c v) ∧
    ∀ k : Fin 3,
      ((t.chan k).vel ≠ (s.chan k).vel → (∃ c n v, i = .noteOn c n v) ∨ ∃ c n, i = .noteOnVel0 c n) ∧
      ((t.chan k).volume ≠ (s.chan k).volume → (∃ c v, i = .ccMainVolume c v) ∨ i = .systemReset) ∧
      ((t.chan k).bend ≠ (s.chan k).bend → ∃ c l m, i = .pitchBend c l m) ∧
      ((t.chan k).depth ≠ (s.chan k).depth → (∃ c v, i = .ccModWheel c v) ∨ i = .systemReset) ∧
      ((t.chan k).pan ≠ (s.chan k).pan → (∃ c v, i = .ccPan c v) ∨ i = .systemReset)

/-- `CHIP_TRACE` only grows (R44): every instruction but a construction, a whole block included, appends to it and changes no
command already in it. -/
def Obligations.TraceOnlyGrows : Prop :=
  ∀ (i : Instr) (s t : State), (∀ cap rate dc p, i ≠ .construct cap rate dc p) → exec i s = .next t →
    ∃ new, t.chipTrace = s.chipTrace ++ new

/-- The gate of R32 on tones (R205, R207): apart from the tone override (R256), a whole block (which can send a tone and then
silence the channel) and a construction, whatever sends `TONE(k, ·)` leaves channel `k` sounding. -/
def Obligations.TonesOnlyWhileSounding : Prop :=
  ∀ (i : Instr) (s t : State) (new : List ChipCmd) (k : Fin 3) (period : Nat),
    (∀ c v, i ≠ .propTonePeriod c v) → (∀ n es, i ≠ .block n es) → (∀ cap rate dc p, i ≠ .construct cap rate dc p) →
    exec i s = .next t → t.chipTrace = s.chipTrace ++ new → .tone k period ∈ new → t.sounding k = true

/-- The events that can send `SHAPE`, and so restart the envelope generator, are note-on, General Purpose 4, the four shape-bit
records and System Reset (R340). -/
def Obligations.EnvelopeRestarts : Prop :=
  ∀ (i : Instr) (s t : State) (new : List ChipCmd) (shape : BitVec 4), i.isEvent = true → exec i s = .next t →
    t.chipTrace = s.chipTrace ++ new → .shape shape ∈ new →
    (∃ c n v, i = .noteOn c n v) ∨ (∃ c n, i = .noteOnVel0 c n) ∨ (∃ c v, i = .ccGp4EnvShape c v) ∨
    (∃ c v, i = .propEnvHold c v) ∨ (∃ c v, i = .propEnvAlternate c v) ∨ (∃ c v, i = .propEnvAttack c v) ∨
    (∃ c v, i = .propEnvContinue c v) ∨ i = .systemReset

/-! ### Pseudo-instructions -/

/-- The expansions of R95 do what their operands say (the syntax is the spec's decision D2): `BEND14` carries its 14-bit value,
`BEND_CENTRE` the value 8192, `VOLUME4` sets the volume, `SHAPE_CC` a shape from 8 up, `ENVPER_CC` the 14-bit envelope period,
its first event sending the correction of the period it leaves and its second the period uncorrected (D15), and `ALL_OFF` is
all-notes-off on channels 0, 1 and 2 in that order. -/
def Obligations.PseudoInstructions : Prop :=
  (∀ (c : BitVec 4) (v : BitVec 14), ∃ p lsb msb, (AsmLine.bend14 c v).payloads = [p] ∧
    decode p = .instr (.pitchBend c lsb msb) ∧ bendValue lsb msb = v.toNat) ∧
  (∀ c : BitVec 4, ∃ p lsb msb, (AsmLine.bendCentre c).payloads = [p] ∧
    decode p = .instr (.pitchBend c lsb msb) ∧ bendValue lsb msb = 8192) ∧
  (∀ (k : Fin 3) (v4 : BitVec 4) (s : State), ∃ p i t, (AsmLine.volume4 (chanNo k) v4).payloads = [p] ∧
    decode p = .instr i ∧ exec i s = .next t ∧ (t.chan k).volume = v4) ∧
  (∀ (k : Fin 3) (shape : BitVec 4) (s : State), (AsmLine.shapeCc (chanNo k) shape).legal = true →
    ∃ p i t, (AsmLine.shapeCc (chanNo k) shape).payloads = [p] ∧ decode p = .instr i ∧ exec i s = .next t ∧
      t.envShape = shape) ∧
  (∀ (k : Fin 3) (p : BitVec 14) (s : State), ∃ p1 p2 i1 i2 t u, (AsmLine.envPerCc (chanNo k) p).payloads = [p1, p2] ∧
    decode p1 = .instr i1 ∧ decode p2 = .instr i2 ∧ exec i1 s = .next t ∧ exec i2 t = .next u ∧
      u.envPeriod.toNat = p.toNat ∧
      u.chipTrace = s.chipTrace ++
        [.envPer (envCorr s.params (p.toNat / 128 * 128 + s.envPeriod.toNat % 128)), .envPer p.toNat]) ∧
  (∃ p0 p1 p2, AsmLine.allOff.payloads = [p0, p1, p2] ∧ decode p0 = .instr (.ccAllNotesOff 0 0) ∧
    decode p1 = .instr (.ccAllNotesOff 1 0) ∧ decode p2 = .instr (.ccAllNotesOff 2 0))
end

