-- ==== Sys2Proof/Laws/Bits.lean ====
section
/-! SUPPORT. The bytes the encoder writes, read back by the decoder's field functions. -/

namespace Sys2Proof

@[simp] theorem lowNibble_statusByte (type c : BitVec 4) : lowNibble (statusByte type c) = c := by
  revert type c; decide +kernel

@[simp] theorem messageType_statusByte (type c : BitVec 4) : messageType (statusByte type c) = type.toNat := by
  revert type c; decide +kernel

@[simp] theorem isDataByte_dataByte (v : BitVec 7) : isDataByte (dataByte v) = true := by
  revert v; decide +kernel

@[simp] theorem dataValue_dataByte (v : BitVec 7) : dataValue (dataByte v) = v := by
  revert v; decide +kernel

/-- A status byte of type 8 or more is no data byte. -/
theorem isDataByte_statusByte {type : BitVec 4} (h : 8 ≤ type.toNat) (c : BitVec 4) :
    isDataByte (statusByte type c) = false := by
  revert type c; decide +kernel

end Sys2Proof
end

