-- ==== Sys2Proof/Laws/State.lean ====
section
/-! SUPPORT. The small lemmas of the state: one per field and named update, and reading a channel after an update. -/

namespace Sys2Proof.Machine

variable (s : State)

/-! ### `emit` -/

@[simp] theorem State.emit_clockHz (cmd : ChipCmd) : (s.emit cmd).clockHz = s.clockHz := rfl
@[simp] theorem State.emit_sampleRate (cmd : ChipCmd) : (s.emit cmd).sampleRate = s.sampleRate := rfl
@[simp] theorem State.emit_mode (cmd : ChipCmd) : (s.emit cmd).mode = s.mode := rfl
@[simp] theorem State.emit_removeDc (cmd : ChipCmd) : (s.emit cmd).removeDc = s.removeDc := rfl
@[simp] theorem State.emit_noisePeriod (cmd : ChipCmd) : (s.emit cmd).noisePeriod = s.noisePeriod := rfl
@[simp] theorem State.emit_envPeriod (cmd : ChipCmd) : (s.emit cmd).envPeriod = s.envPeriod := rfl
@[simp] theorem State.emit_envShape (cmd : ChipCmd) : (s.emit cmd).envShape = s.envShape := rfl
@[simp] theorem State.emit_sampleCtr (cmd : ChipCmd) : (s.emit cmd).sampleCtr = s.sampleCtr := rfl
@[simp] theorem State.emit_cfgInvalid (cmd : ChipCmd) : (s.emit cmd).cfgInvalid = s.cfgInvalid := rfl
@[simp] theorem State.emit_fault (cmd : ChipCmd) : (s.emit cmd).fault = s.fault := rfl
@[simp] theorem State.emit_ch (cmd : ChipCmd) : (s.emit cmd).ch = s.ch := rfl
@[simp] theorem State.emit_frames (cmd : ChipCmd) : (s.emit cmd).frames = s.frames := rfl
@[simp] theorem State.emit_cursor (cmd : ChipCmd) : (s.emit cmd).cursor = s.cursor := rfl
@[simp] theorem State.emit_evIdx (cmd : ChipCmd) : (s.emit cmd).evIdx = s.evIdx := rfl
@[simp] theorem State.emit_outL (cmd : ChipCmd) : (s.emit cmd).outL = s.outL := rfl
@[simp] theorem State.emit_outR (cmd : ChipCmd) : (s.emit cmd).outR = s.outR := rfl
@[simp] theorem State.emit_chipTrace (cmd : ChipCmd) : (s.emit cmd).chipTrace = s.chipTrace ++ [cmd] := rfl
@[simp] theorem State.emit_events (cmd : ChipCmd) : (s.emit cmd).events = s.events := rfl
@[simp] theorem State.emit_calls (cmd : ChipCmd) : (s.emit cmd).calls = s.calls := rfl
@[simp] theorem State.emit_params (cmd : ChipCmd) : (s.emit cmd).params = s.params := rfl
@[simp] theorem State.emit_cfgAnswers (cmd : ChipCmd) : (s.emit cmd).cfgAnswers = s.cfgAnswers := rfl
@[simp] theorem State.emit_renderAnswers (cmd : ChipCmd) : (s.emit cmd).renderAnswers = s.renderAnswers := rfl
@[simp] theorem State.emit_draws (cmd : ChipCmd) : (s.emit cmd).draws = s.draws := rfl
@[simp] theorem State.emit_faultIndex (cmd : ChipCmd) : (s.emit cmd).faultIndex = s.faultIndex := rfl

/-! ### `setChan` -/

@[simp] theorem State.setChan_clockHz (c : Fin 3) (x : Channel) : (s.setChan c x).clockHz = s.clockHz := rfl
@[simp] theorem State.setChan_sampleRate (c : Fin 3) (x : Channel) : (s.setChan c x).sampleRate = s.sampleRate := rfl
@[simp] theorem State.setChan_mode (c : Fin 3) (x : Channel) : (s.setChan c x).mode = s.mode := rfl
@[simp] theorem State.setChan_removeDc (c : Fin 3) (x : Channel) : (s.setChan c x).removeDc = s.removeDc := rfl
@[simp] theorem State.setChan_noisePeriod (c : Fin 3) (x : Channel) : (s.setChan c x).noisePeriod = s.noisePeriod := rfl
@[simp] theorem State.setChan_envPeriod (c : Fin 3) (x : Channel) : (s.setChan c x).envPeriod = s.envPeriod := rfl
@[simp] theorem State.setChan_envShape (c : Fin 3) (x : Channel) : (s.setChan c x).envShape = s.envShape := rfl
@[simp] theorem State.setChan_sampleCtr (c : Fin 3) (x : Channel) : (s.setChan c x).sampleCtr = s.sampleCtr := rfl
@[simp] theorem State.setChan_cfgInvalid (c : Fin 3) (x : Channel) : (s.setChan c x).cfgInvalid = s.cfgInvalid := rfl
@[simp] theorem State.setChan_fault (c : Fin 3) (x : Channel) : (s.setChan c x).fault = s.fault := rfl
@[simp] theorem State.setChan_ch (c : Fin 3) (x : Channel) : (s.setChan c x).ch = s.ch.set c x := rfl
@[simp] theorem State.setChan_frames (c : Fin 3) (x : Channel) : (s.setChan c x).frames = s.frames := rfl
@[simp] theorem State.setChan_cursor (c : Fin 3) (x : Channel) : (s.setChan c x).cursor = s.cursor := rfl
@[simp] theorem State.setChan_evIdx (c : Fin 3) (x : Channel) : (s.setChan c x).evIdx = s.evIdx := rfl
@[simp] theorem State.setChan_outL (c : Fin 3) (x : Channel) : (s.setChan c x).outL = s.outL := rfl
@[simp] theorem State.setChan_outR (c : Fin 3) (x : Channel) : (s.setChan c x).outR = s.outR := rfl
@[simp] theorem State.setChan_chipTrace (c : Fin 3) (x : Channel) : (s.setChan c x).chipTrace = s.chipTrace := rfl
@[simp] theorem State.setChan_events (c : Fin 3) (x : Channel) : (s.setChan c x).events = s.events := rfl
@[simp] theorem State.setChan_calls (c : Fin 3) (x : Channel) : (s.setChan c x).calls = s.calls := rfl
@[simp] theorem State.setChan_params (c : Fin 3) (x : Channel) : (s.setChan c x).params = s.params := rfl
@[simp] theorem State.setChan_cfgAnswers (c : Fin 3) (x : Channel) : (s.setChan c x).cfgAnswers = s.cfgAnswers := rfl
@[simp] theorem State.setChan_renderAnswers (c : Fin 3) (x : Channel) : (s.setChan c x).renderAnswers = s.renderAnswers := rfl
@[simp] theorem State.setChan_draws (c : Fin 3) (x : Channel) : (s.setChan c x).draws = s.draws := rfl
@[simp] theorem State.setChan_faultIndex (c : Fin 3) (x : Channel) : (s.setChan c x).faultIndex = s.faultIndex := rfl

/-! ### `emitCfg` -/

@[simp] theorem State.emitCfg_clockHz : (s.emitCfg).clockHz = s.clockHz := rfl
@[simp] theorem State.emitCfg_sampleRate : (s.emitCfg).sampleRate = s.sampleRate := rfl
@[simp] theorem State.emitCfg_mode : (s.emitCfg).mode = s.mode := rfl
@[simp] theorem State.emitCfg_removeDc : (s.emitCfg).removeDc = s.removeDc := rfl
@[simp] theorem State.emitCfg_noisePeriod : (s.emitCfg).noisePeriod = s.noisePeriod := rfl
@[simp] theorem State.emitCfg_envPeriod : (s.emitCfg).envPeriod = s.envPeriod := rfl
@[simp] theorem State.emitCfg_envShape : (s.emitCfg).envShape = s.envShape := rfl
@[simp] theorem State.emitCfg_sampleCtr : (s.emitCfg).sampleCtr = s.sampleCtr := rfl
@[simp] theorem State.emitCfg_cfgInvalid : (s.emitCfg).cfgInvalid = !s.cfgOk := rfl
@[simp] theorem State.emitCfg_fault : (s.emitCfg).fault = s.fault := rfl
@[simp] theorem State.emitCfg_ch : (s.emitCfg).ch = s.ch := rfl
@[simp] theorem State.emitCfg_frames : (s.emitCfg).frames = s.frames := rfl
@[simp] theorem State.emitCfg_cursor : (s.emitCfg).cursor = s.cursor := rfl
@[simp] theorem State.emitCfg_evIdx : (s.emitCfg).evIdx = s.evIdx := rfl
@[simp] theorem State.emitCfg_outL : (s.emitCfg).outL = s.outL := rfl
@[simp] theorem State.emitCfg_outR : (s.emitCfg).outR = s.outR := rfl
@[simp] theorem State.emitCfg_chipTrace : (s.emitCfg).chipTrace = s.chipTrace ++ [.cfg s.mode s.clockHz s.sampleRate s.cfgOk] := rfl
@[simp] theorem State.emitCfg_events : (s.emitCfg).events = s.events := rfl
@[simp] theorem State.emitCfg_calls : (s.emitCfg).calls = s.calls := rfl
@[simp] theorem State.emitCfg_params : (s.emitCfg).params = s.params := rfl
@[simp] theorem State.emitCfg_cfgAnswers : (s.emitCfg).cfgAnswers = s.cfgAnswers.tail := rfl
@[simp] theorem State.emitCfg_renderAnswers : (s.emitCfg).renderAnswers = s.renderAnswers := rfl
@[simp] theorem State.emitCfg_draws : (s.emitCfg).draws = s.draws + 1 := rfl
@[simp] theorem State.emitCfg_faultIndex : (s.emitCfg).faultIndex = s.faultIndex := rfl

/-! ### `emitRender` -/

@[simp] theorem State.emitRender_clockHz : (s.emitRender).clockHz = s.clockHz := rfl
@[simp] theorem State.emitRender_sampleRate : (s.emitRender).sampleRate = s.sampleRate := rfl
@[simp] theorem State.emitRender_mode : (s.emitRender).mode = s.mode := rfl
@[simp] theorem State.emitRender_removeDc : (s.emitRender).removeDc = s.removeDc := rfl
@[simp] theorem State.emitRender_noisePeriod : (s.emitRender).noisePeriod = s.noisePeriod := rfl
@[simp] theorem State.emitRender_envPeriod : (s.emitRender).envPeriod = s.envPeriod := rfl
@[simp] theorem State.emitRender_envShape : (s.emitRender).envShape = s.envShape := rfl
@[simp] theorem State.emitRender_sampleCtr : (s.emitRender).sampleCtr = s.sampleCtr := rfl
@[simp] theorem State.emitRender_cfgInvalid : (s.emitRender).cfgInvalid = s.cfgInvalid := rfl
@[simp] theorem State.emitRender_fault : (s.emitRender).fault = s.fault := rfl
@[simp] theorem State.emitRender_ch : (s.emitRender).ch = s.ch := rfl
@[simp] theorem State.emitRender_frames : (s.emitRender).frames = s.frames := rfl
@[simp] theorem State.emitRender_cursor : (s.emitRender).cursor = s.cursor := rfl
@[simp] theorem State.emitRender_evIdx : (s.emitRender).evIdx = s.evIdx := rfl
@[simp] theorem State.emitRender_outL : (s.emitRender).outL = s.outL := rfl
@[simp] theorem State.emitRender_outR : (s.emitRender).outR = s.outR := rfl
@[simp] theorem State.emitRender_chipTrace : (s.emitRender).chipTrace = s.chipTrace ++ [.render s.removeDc s.samplePair.1 s.samplePair.2] := rfl
@[simp] theorem State.emitRender_events : (s.emitRender).events = s.events := rfl
@[simp] theorem State.emitRender_calls : (s.emitRender).calls = s.calls := rfl
@[simp] theorem State.emitRender_params : (s.emitRender).params = s.params := rfl
@[simp] theorem State.emitRender_cfgAnswers : (s.emitRender).cfgAnswers = s.cfgAnswers := rfl
@[simp] theorem State.emitRender_renderAnswers : (s.emitRender).renderAnswers = s.renderAnswers.tail := rfl
@[simp] theorem State.emitRender_draws : (s.emitRender).draws = s.draws + 1 := rfl
@[simp] theorem State.emitRender_faultIndex : (s.emitRender).faultIndex = s.faultIndex := rfl

/-! ### `outWrite` -/

@[simp] theorem State.outWrite_clockHz (i : Nat) (l r : Binary32) : (s.outWrite i l r).clockHz = s.clockHz := rfl
@[simp] theorem State.outWrite_sampleRate (i : Nat) (l r : Binary32) : (s.outWrite i l r).sampleRate = s.sampleRate := rfl
@[simp] theorem State.outWrite_mode (i : Nat) (l r : Binary32) : (s.outWrite i l r).mode = s.mode := rfl
@[simp] theorem State.outWrite_removeDc (i : Nat) (l r : Binary32) : (s.outWrite i l r).removeDc = s.removeDc := rfl
@[simp] theorem State.outWrite_noisePeriod (i : Nat) (l r : Binary32) : (s.outWrite i l r).noisePeriod = s.noisePeriod := rfl
@[simp] theorem State.outWrite_envPeriod (i : Nat) (l r : Binary32) : (s.outWrite i l r).envPeriod = s.envPeriod := rfl
@[simp] theorem State.outWrite_envShape (i : Nat) (l r : Binary32) : (s.outWrite i l r).envShape = s.envShape := rfl
@[simp] theorem State.outWrite_sampleCtr (i : Nat) (l r : Binary32) : (s.outWrite i l r).sampleCtr = s.sampleCtr := rfl
@[simp] theorem State.outWrite_cfgInvalid (i : Nat) (l r : Binary32) : (s.outWrite i l r).cfgInvalid = s.cfgInvalid := rfl
@[simp] theorem State.outWrite_fault (i : Nat) (l r : Binary32) : (s.outWrite i l r).fault = s.fault := rfl
@[simp] theorem State.outWrite_ch (i : Nat) (l r : Binary32) : (s.outWrite i l r).ch = s.ch := rfl
@[simp] theorem State.outWrite_frames (i : Nat) (l r : Binary32) : (s.outWrite i l r).frames = s.frames := rfl
@[simp] theorem State.outWrite_cursor (i : Nat) (l r : Binary32) : (s.outWrite i l r).cursor = s.cursor := rfl
@[simp] theorem State.outWrite_evIdx (i : Nat) (l r : Binary32) : (s.outWrite i l r).evIdx = s.evIdx := rfl
@[simp] theorem State.outWrite_outL (i : Nat) (l r : Binary32) : (s.outWrite i l r).outL = s.outL.set i (some l) := rfl
@[simp] theorem State.outWrite_outR (i : Nat) (l r : Binary32) : (s.outWrite i l r).outR = s.outR.set i (some r) := rfl
@[simp] theorem State.outWrite_chipTrace (i : Nat) (l r : Binary32) : (s.outWrite i l r).chipTrace = s.chipTrace := rfl
@[simp] theorem State.outWrite_events (i : Nat) (l r : Binary32) : (s.outWrite i l r).events = s.events := rfl
@[simp] theorem State.outWrite_calls (i : Nat) (l r : Binary32) : (s.outWrite i l r).calls = s.calls := rfl
@[simp] theorem State.outWrite_params (i : Nat) (l r : Binary32) : (s.outWrite i l r).params = s.params := rfl
@[simp] theorem State.outWrite_cfgAnswers (i : Nat) (l r : Binary32) : (s.outWrite i l r).cfgAnswers = s.cfgAnswers := rfl
@[simp] theorem State.outWrite_renderAnswers (i : Nat) (l r : Binary32) : (s.outWrite i l r).renderAnswers = s.renderAnswers := rfl
@[simp] theorem State.outWrite_draws (i : Nat) (l r : Binary32) : (s.outWrite i l r).draws = s.draws := rfl
@[simp] theorem State.outWrite_faultIndex (i : Nat) (l r : Binary32) : (s.outWrite i l r).faultIndex = s.faultIndex := rfl

/-! ### `advance` -/

@[simp] theorem State.advance_clockHz : (s.advance).clockHz = s.clockHz := rfl
@[simp] theorem State.advance_sampleRate : (s.advance).sampleRate = s.sampleRate := rfl
@[simp] theorem State.advance_mode : (s.advance).mode = s.mode := rfl
@[simp] theorem State.advance_removeDc : (s.advance).removeDc = s.removeDc := rfl
@[simp] theorem State.advance_noisePeriod : (s.advance).noisePeriod = s.noisePeriod := rfl
@[simp] theorem State.advance_envPeriod : (s.advance).envPeriod = s.envPeriod := rfl
@[simp] theorem State.advance_envShape : (s.advance).envShape = s.envShape := rfl
@[simp] theorem State.advance_sampleCtr : (s.advance).sampleCtr = s.sampleCtr := rfl
@[simp] theorem State.advance_cfgInvalid : (s.advance).cfgInvalid = s.cfgInvalid := rfl
@[simp] theorem State.advance_fault : (s.advance).fault = s.fault := rfl
@[simp] theorem State.advance_ch : (s.advance).ch = s.ch := rfl
@[simp] theorem State.advance_frames : (s.advance).frames = s.frames := rfl
@[simp] theorem State.advance_cursor : (s.advance).cursor = s.cursor := rfl
@[simp] theorem State.advance_evIdx : (s.advance).evIdx = s.evIdx + 1 := rfl
@[simp] theorem State.advance_outL : (s.advance).outL = s.outL := rfl
@[simp] theorem State.advance_outR : (s.advance).outR = s.outR := rfl
@[simp] theorem State.advance_chipTrace : (s.advance).chipTrace = s.chipTrace := rfl
@[simp] theorem State.advance_events : (s.advance).events = s.events := rfl
@[simp] theorem State.advance_calls : (s.advance).calls = s.calls := rfl
@[simp] theorem State.advance_params : (s.advance).params = s.params := rfl
@[simp] theorem State.advance_cfgAnswers : (s.advance).cfgAnswers = s.cfgAnswers := rfl
@[simp] theorem State.advance_renderAnswers : (s.advance).renderAnswers = s.renderAnswers := rfl
@[simp] theorem State.advance_draws : (s.advance).draws = s.draws := rfl
@[simp] theorem State.advance_faultIndex : (s.advance).faultIndex = s.faultIndex := rfl

/-! ### `takeHostContract` -/

@[simp] theorem State.takeHostContract_clockHz (j : Nat) : (s.takeHostContract j).clockHz = s.clockHz := rfl
@[simp] theorem State.takeHostContract_sampleRate (j : Nat) : (s.takeHostContract j).sampleRate = s.sampleRate := rfl
@[simp] theorem State.takeHostContract_mode (j : Nat) : (s.takeHostContract j).mode = s.mode := rfl
@[simp] theorem State.takeHostContract_removeDc (j : Nat) : (s.takeHostContract j).removeDc = s.removeDc := rfl
@[simp] theorem State.takeHostContract_noisePeriod (j : Nat) : (s.takeHostContract j).noisePeriod = s.noisePeriod := rfl
@[simp] theorem State.takeHostContract_envPeriod (j : Nat) : (s.takeHostContract j).envPeriod = s.envPeriod := rfl
@[simp] theorem State.takeHostContract_envShape (j : Nat) : (s.takeHostContract j).envShape = s.envShape := rfl
@[simp] theorem State.takeHostContract_sampleCtr (j : Nat) : (s.takeHostContract j).sampleCtr = s.sampleCtr := rfl
@[simp] theorem State.takeHostContract_cfgInvalid (j : Nat) : (s.takeHostContract j).cfgInvalid = s.cfgInvalid := rfl
@[simp] theorem State.takeHostContract_fault (j : Nat) : (s.takeHostContract j).fault = true := rfl
@[simp] theorem State.takeHostContract_ch (j : Nat) : (s.takeHostContract j).ch = s.ch := rfl
@[simp] theorem State.takeHostContract_frames (j : Nat) : (s.takeHostContract j).frames = s.frames := rfl
@[simp] theorem State.takeHostContract_cursor (j : Nat) : (s.takeHostContract j).cursor = s.cursor := rfl
@[simp] theorem State.takeHostContract_evIdx (j : Nat) : (s.takeHostContract j).evIdx = s.evIdx := rfl
@[simp] theorem State.takeHostContract_outL (j : Nat) : (s.takeHostContract j).outL = s.outL := rfl
@[simp] theorem State.takeHostContract_outR (j : Nat) : (s.takeHostContract j).outR = s.outR := rfl
@[simp] theorem State.takeHostContract_chipTrace (j : Nat) : (s.takeHostContract j).chipTrace = s.chipTrace := rfl
@[simp] theorem State.takeHostContract_events (j : Nat) : (s.takeHostContract j).events = s.events := rfl
@[simp] theorem State.takeHostContract_calls (j : Nat) : (s.takeHostContract j).calls = s.calls := rfl
@[simp] theorem State.takeHostContract_params (j : Nat) : (s.takeHostContract j).params = s.params := rfl
@[simp] theorem State.takeHostContract_cfgAnswers (j : Nat) : (s.takeHostContract j).cfgAnswers = s.cfgAnswers := rfl
@[simp] theorem State.takeHostContract_renderAnswers (j : Nat) : (s.takeHostContract j).renderAnswers = s.renderAnswers := rfl
@[simp] theorem State.takeHostContract_draws (j : Nat) : (s.takeHostContract j).draws = s.draws := rfl
@[simp] theorem State.takeHostContract_faultIndex (j : Nat) : (s.takeHostContract j).faultIndex = j := rfl

/-! ### `openBlock` -/

@[simp] theorem State.openBlock_clockHz (n : BitVec 32) (es : List Event) : (s.openBlock n es).clockHz = s.clockHz := rfl
@[simp] theorem State.openBlock_sampleRate (n : BitVec 32) (es : List Event) : (s.openBlock n es).sampleRate = s.sampleRate := rfl
@[simp] theorem State.openBlock_mode (n : BitVec 32) (es : List Event) : (s.openBlock n es).mode = s.mode := rfl
@[simp] theorem State.openBlock_removeDc (n : BitVec 32) (es : List Event) : (s.openBlock n es).removeDc = s.removeDc := rfl
@[simp] theorem State.openBlock_noisePeriod (n : BitVec 32) (es : List Event) : (s.openBlock n es).noisePeriod = s.noisePeriod := rfl
@[simp] theorem State.openBlock_envPeriod (n : BitVec 32) (es : List Event) : (s.openBlock n es).envPeriod = s.envPeriod := rfl
@[simp] theorem State.openBlock_envShape (n : BitVec 32) (es : List Event) : (s.openBlock n es).envShape = s.envShape := rfl
@[simp] theorem State.openBlock_sampleCtr (n : BitVec 32) (es : List Event) : (s.openBlock n es).sampleCtr = s.sampleCtr := rfl
@[simp] theorem State.openBlock_cfgInvalid (n : BitVec 32) (es : List Event) : (s.openBlock n es).cfgInvalid = s.cfgInvalid := rfl
@[simp] theorem State.openBlock_fault (n : BitVec 32) (es : List Event) : (s.openBlock n es).fault = s.fault := rfl
@[simp] theorem State.openBlock_ch (n : BitVec 32) (es : List Event) : (s.openBlock n es).ch = s.ch := rfl
@[simp] theorem State.openBlock_frames (n : BitVec 32) (es : List Event) : (s.openBlock n es).frames = n := rfl
@[simp] theorem State.openBlock_cursor (n : BitVec 32) (es : List Event) : (s.openBlock n es).cursor = 0 := rfl
@[simp] theorem State.openBlock_evIdx (n : BitVec 32) (es : List Event) : (s.openBlock n es).evIdx = 0 := rfl
@[simp] theorem State.openBlock_outL (n : BitVec 32) (es : List Event) : (s.openBlock n es).outL = List.replicate n.toNat none := rfl
@[simp] theorem State.openBlock_outR (n : BitVec 32) (es : List Event) : (s.openBlock n es).outR = List.replicate n.toNat none := rfl
@[simp] theorem State.openBlock_chipTrace (n : BitVec 32) (es : List Event) : (s.openBlock n es).chipTrace = s.chipTrace := rfl
@[simp] theorem State.openBlock_events (n : BitVec 32) (es : List Event) : (s.openBlock n es).events = es := rfl
@[simp] theorem State.openBlock_calls (n : BitVec 32) (es : List Event) : (s.openBlock n es).calls = s.calls := rfl
@[simp] theorem State.openBlock_params (n : BitVec 32) (es : List Event) : (s.openBlock n es).params = s.params := rfl
@[simp] theorem State.openBlock_cfgAnswers (n : BitVec 32) (es : List Event) : (s.openBlock n es).cfgAnswers = s.cfgAnswers := rfl
@[simp] theorem State.openBlock_renderAnswers (n : BitVec 32) (es : List Event) : (s.openBlock n es).renderAnswers = s.renderAnswers := rfl
@[simp] theorem State.openBlock_draws (n : BitVec 32) (es : List Event) : (s.openBlock n es).draws = s.draws := rfl
@[simp] theorem State.openBlock_faultIndex (n : BitVec 32) (es : List Event) : (s.openBlock n es).faultIndex = s.faultIndex := rfl

/-! ### `resetRegisters` -/

@[simp] theorem State.resetRegisters_clockHz : (s.resetRegisters).clockHz = s.clockHz := rfl
@[simp] theorem State.resetRegisters_sampleRate : (s.resetRegisters).sampleRate = s.sampleRate := rfl
@[simp] theorem State.resetRegisters_mode : (s.resetRegisters).mode = s.mode := rfl
@[simp] theorem State.resetRegisters_removeDc : (s.resetRegisters).removeDc = s.removeDc := rfl
@[simp] theorem State.resetRegisters_noisePeriod : (s.resetRegisters).noisePeriod = 0 := rfl
@[simp] theorem State.resetRegisters_envPeriod : (s.resetRegisters).envPeriod = 0 := rfl
@[simp] theorem State.resetRegisters_envShape : (s.resetRegisters).envShape = 0 := rfl
@[simp] theorem State.resetRegisters_sampleCtr : (s.resetRegisters).sampleCtr = s.sampleCtr := rfl
@[simp] theorem State.resetRegisters_cfgInvalid : (s.resetRegisters).cfgInvalid = s.cfgInvalid := rfl
@[simp] theorem State.resetRegisters_fault : (s.resetRegisters).fault = s.fault := rfl
@[simp] theorem State.resetRegisters_ch : (s.resetRegisters).ch = s.ch.map Channel.systemReset := rfl
@[simp] theorem State.resetRegisters_frames : (s.resetRegisters).frames = s.frames := rfl
@[simp] theorem State.resetRegisters_cursor : (s.resetRegisters).cursor = s.cursor := rfl
@[simp] theorem State.resetRegisters_evIdx : (s.resetRegisters).evIdx = s.evIdx := rfl
@[simp] theorem State.resetRegisters_outL : (s.resetRegisters).outL = s.outL := rfl
@[simp] theorem State.resetRegisters_outR : (s.resetRegisters).outR = s.outR := rfl
@[simp] theorem State.resetRegisters_chipTrace : (s.resetRegisters).chipTrace = s.chipTrace := rfl
@[simp] theorem State.resetRegisters_events : (s.resetRegisters).events = s.events := rfl
@[simp] theorem State.resetRegisters_calls : (s.resetRegisters).calls = s.calls := rfl
@[simp] theorem State.resetRegisters_params : (s.resetRegisters).params = s.params := rfl
@[simp] theorem State.resetRegisters_cfgAnswers : (s.resetRegisters).cfgAnswers = s.cfgAnswers := rfl
@[simp] theorem State.resetRegisters_renderAnswers : (s.resetRegisters).renderAnswers = s.renderAnswers := rfl
@[simp] theorem State.resetRegisters_draws : (s.resetRegisters).draws = s.draws := rfl
@[simp] theorem State.resetRegisters_faultIndex : (s.resetRegisters).faultIndex = s.faultIndex := rfl

/-! ### Reading a channel -/

@[simp] theorem State.chan_setChan_self (c : Fin 3) (x : Channel) : (s.setChan c x).chan c = x := by
  simp [State.chan]

theorem State.chan_setChan_ne {c d : Fin 3} (h : d ≠ c) (x : Channel) : (s.setChan c x).chan d = s.chan d := by
  have : c.val ≠ d.val := fun e => h (Fin.ext e.symm)
  simp [State.chan, State.setChan, this]

/-- Reading channel `d` after a write of channel `c`. -/
theorem State.chan_setChan (c d : Fin 3) (x : Channel) :
    (s.setChan c x).chan d = if d = c then x else s.chan d := by
  split
  · subst_vars; exact s.chan_setChan_self _ x
  · exact s.chan_setChan_ne ‹_› x

@[simp] theorem State.chan_emit (cmd : ChipCmd) (d : Fin 3) : (s.emit cmd).chan d = s.chan d := rfl
@[simp] theorem State.chan_emitCfg (d : Fin 3) : s.emitCfg.chan d = s.chan d := rfl
@[simp] theorem State.chan_emitRender (d : Fin 3) : s.emitRender.chan d = s.chan d := rfl
@[simp] theorem State.chan_outWrite (i : Nat) (l r : Binary32) (d : Fin 3) : (s.outWrite i l r).chan d = s.chan d := rfl
@[simp] theorem State.chan_advance (d : Fin 3) : s.advance.chan d = s.chan d := rfl
@[simp] theorem State.chan_takeHostContract (j : Nat) (d : Fin 3) : (s.takeHostContract j).chan d = s.chan d := rfl
@[simp] theorem State.chan_openBlock (n : BitVec 32) (es : List Event) (d : Fin 3) :
    (s.openBlock n es).chan d = s.chan d := rfl
@[simp] theorem State.chan_resetRegisters (d : Fin 3) : s.resetRegisters.chan d = (s.chan d).systemReset := by
  simp [State.chan, State.resetRegisters]

/-- Two states with the same fields have the same channels. -/
theorem State.chan_congr {s t : State} (h : s.ch = t.ch) (d : Fin 3) : s.chan d = t.chan d := by
  simp [State.chan, h]

end Sys2Proof.Machine
end

