-- ==== Sys2Proof/Laws/Ops.lean ====
section
/-! SUPPORT. What each shared operation can do, said once: sequencing, the operand gates, the tone and level pushes. -/

namespace Sys2Proof.Machine

/-! ### Sequencing -/

@[simp] theorem andThen_next (s : State) (f : State → Result) : andThen (.next s) f = f s := rfl
@[simp] theorem andThen_fault (w : Fault) (f : State → Result) : andThen (.fault w) f = .fault w := rfl
@[simp] theorem andThen_refused (w : Refusal) (f : State → Result) : andThen (.refused w) f = .refused w := rfl

/-- A sequence answers a next state only through a next state of its first part. -/
theorem andThen_eq_next {r : Result} {f : State → Result} {t : State} :
    andThen r f = .next t ↔ ∃ s, r = .next s ∧ f s = .next t := by
  cases r <;> simp

theorem andThen_assoc (r : Result) (f g : State → Result) :
    andThen (andThen r f) g = andThen r fun s => andThen (f s) g := by
  cases r <;> rfl

/-! ### Operand gates -/

theorem liveChannel_of_lt {c : BitVec 4} (h : c.toNat < 3) : liveChannel c = some ⟨c.toNat, h⟩ := by
  simp [liveChannel, h]

theorem liveChannel_of_le {c : BitVec 4} (h : 3 ≤ c.toNat) : liveChannel c = none := by
  have : ¬ c.toNat < 3 := by omega
  simp [liveChannel, this]

@[simp] theorem liveChannel_chanNo (k : Fin 3) : liveChannel (chanNo k) = some k := by
  revert k; decide

theorem onChannel_live {c : BitVec 4} (h : c.toNat < 3) (s : State) (f : Fin 3 → State) :
    onChannel c s f = .next (f ⟨c.toNat, h⟩) := by
  simp [onChannel, liveChannel_of_lt h]

theorem onChannel_ignored {c : BitVec 4} (h : 3 ≤ c.toNat) (s : State) (f : Fin 3 → State) :
    onChannel c s f = .next s := by
  simp [onChannel, liveChannel_of_le h]

/-- All that the channel gate can answer. -/
theorem onChannel_eq_next {c : BitVec 4} {s t : State} {f : Fin 3 → State} (h : onChannel c s f = .next t) :
    (∃ k : Fin 3, k.val = c.toNat ∧ t = f k) ∨ (3 ≤ c.toNat ∧ t = s) := by
  by_cases hc : c.toNat < 3
  · rw [onChannel_live hc] at h
    exact .inl ⟨⟨c.toNat, hc⟩, rfl, by injection h with h; exact h.symm⟩
  · have hc : 3 ≤ c.toNat := by omega
    rw [onChannel_ignored hc] at h
    exact .inr ⟨hc, by injection h with h; exact h.symm⟩

theorem propChannel_of_lt {chan : Byte} (h : chan.toNat < 3) : propChannel chan = some ⟨chan.toNat, h⟩ := by
  simp [propChannel, h]

theorem propChannel_of_le {chan : Byte} (h : 3 ≤ chan.toNat) : propChannel chan = none := by
  have : ¬ chan.toNat < 3 := by omega
  simp [propChannel, this]

@[simp] theorem onChannel_chanNo (k : Fin 3) (s : State) (f : Fin 3 → State) : onChannel (chanNo k) s f = .next (f k) := by
  simp [onChannel]

@[simp] theorem propChannel_chanByte (k : Fin 3) : propChannel (chanByte k) = some k := by
  revert k; decide

@[simp] theorem onChannelValue_chanByte {α : Type} (a : α) (k : Fin 3) (s : State) (f : Fin 3 → α → State) :
    onChannelValue (some a) (chanByte k) s f = .next (f k a) := by
  simp [onChannelValue]

/-- All that a global record's gate can answer. -/
theorem onValue_eq_next {α : Type} {o : Option α} {s t : State} {f : α → State} (h : onValue o s f = .next t) :
    (∃ a, o = some a ∧ t = f a) ∨ (o = none ∧ t = s) := by
  cases o with
  | none => exact .inr ⟨rfl, by injection h with h; exact h.symm⟩
  | some a => exact .inl ⟨a, rfl, by injection h with h; exact h.symm⟩

/-- All that a per-channel record's gate can answer. -/
theorem onChannelValue_eq_next {α : Type} {o : Option α} {chan : Byte} {s t : State} {f : Fin 3 → α → State}
    (h : onChannelValue o chan s f = .next t) :
    (∃ a c, o = some a ∧ propChannel chan = some c ∧ t = f c a) ∨ ((o = none ∨ propChannel chan = none) ∧ t = s) := by
  cases o with
  | none =>
    refine .inr ⟨.inl rfl, ?_⟩
    injection h with h; exact h.symm
  | some a =>
    unfold onChannelValue at h
    cases hc : propChannel chan with
    | none =>
      rw [hc] at h
      refine .inr ⟨.inr rfl, ?_⟩
      injection h with h; exact h.symm
    | some c =>
      rw [hc] at h
      refine .inl ⟨a, c, rfl, rfl, ?_⟩
      injection h with h; exact h.symm

/-- The integer a legal record carries (R247, steps 2 and 4). -/
theorem natUpTo_eq_some {top n : Nat} {value : PropValue} (h : natUpTo top value = some n) :
    n ≤ top ∧ ∃ v : BitVec 32, value = .int v ∧ v.toInt = n := by
  cases value with
  | real x => simp [natUpTo, intValue] at h
  | bool b => simp [natUpTo, intValue] at h
  | int v =>
    simp only [natUpTo, intValue] at h
    split at h
    · next hv =>
      injection h with h
      exact ⟨by omega, v, rfl, by omega⟩
    · cases h

/-! ### Tone and level pushes -/

theorem State.toneUpdate_sounding {s : State} {c : Fin 3} (h : s.sounding c = true) :
    s.toneUpdate c = s.emit (.tone c (s.period c)) := by
  simp [State.toneUpdate, State.pushTone, h]

theorem State.toneUpdate_silent {s : State} {c : Fin 3} (h : s.sounding c = false) : s.toneUpdate c = s := by
  simp [State.toneUpdate, h]

theorem State.pushLevel_sounding {s : State} {c : Fin 3} (h : s.sounding c = true) :
    s.pushLevel c = s.emit (.vol c (level (s.chan c).volume (s.chan c).vel)) := by
  simp [State.pushLevel, h]

theorem State.pushLevel_silent {s : State} {c : Fin 3} (h : s.sounding c = false) : s.pushLevel c = s := by
  simp [State.pushLevel, h]

/-- A tone update changes nothing but the trace. -/
theorem State.toneUpdate_eq (s : State) (c : Fin 3) :
    s.toneUpdate c = { s with chipTrace := s.chipTrace ++ if s.sounding c then [.tone c (s.period c)] else [] } := by
  unfold State.toneUpdate
  split <;> simp_all [State.pushTone, State.emit]

/-- A level push changes nothing but the trace. -/
theorem State.pushLevel_eq (s : State) (c : Fin 3) :
    s.pushLevel c = { s with
      chipTrace := s.chipTrace ++ if s.sounding c then [.vol c (level (s.chan c).volume (s.chan c).vel)] else [] } := by
  unfold State.pushLevel
  split <;> simp_all [State.emit]

/-- One channel of `MOD_TICK` changes nothing but the trace. -/
theorem State.modTickChannel_eq (s : State) (c : Fin 3) :
    s.modTickChannel c =
      { s with chipTrace := s.chipTrace ++ if s.modulated c then [.tone c (s.period c)] else [] } := by
  unfold State.modTickChannel
  split <;> simp_all [State.pushTone, State.emit]

end Sys2Proof.Machine
end

