-- ==== Sys2Proof/Laws/Dispatcher.lean ====
section
/-! SUPPORT. Decoding answers events only, and the dispatcher applies an event exactly as `exec` does. -/

namespace Sys2Proof.Machine

/-- The dispatcher's meaning of an event is `exec`'s. -/
theorem applyInstr_eq_exec {i : Instr} (h : i.isEvent = true) (s : State) : applyInstr i s = exec i s := by
  cases i <;> first | rfl | simp [Instr.isEvent] at h

theorem decodeController_isEvent (c : BitVec 4) (k v : BitVec 7) : (decodeController c k v).isEvent = true := by
  unfold decodeController
  split <;> rfl

theorem decodeMessage_isEvent (b0 : Byte) (data : List Byte) : (decodeMessage b0 data).isEvent = true := by
  simp only [decodeMessage]
  split
  case h_4 => exact decodeController_isEvent _ _ _
  all_goals first | rfl | (split <;> rfl)

theorem decodeProp_isEvent (key chan : Byte) (value : PropValue) : (decodeProp key chan value).isEvent = true := by
  unfold decodeProp
  split <;> rfl

/-- Decoding never answers an internal operation (R93). -/
theorem decode_isEvent {p : Payload} {i : Instr} (h : decode p = .instr i) : i.isEvent = true := by
  cases p with
  | prop key chan value =>
    simp only [decode, Decoded.instr.injEq] at h
    exact h ▸ decodeProp_isEvent key chan value
  | midi bytes =>
    cases bytes with
    | nil => simp [decode, decodeMidi] at h
    | cons b0 data =>
      simp only [decode, decodeMidi] at h
      split at h <;> try cases h
      split at h <;> try cases h
      split at h <;> try cases h
      exact decodeMessage_isEvent b0 data

@[simp] theorem emptyBlock_eq_true {n : BitVec 32} {events : List Event} :
    emptyBlock n events = true ↔ n = 0 ∧ events = [] := by
  simp [emptyBlock]

/-- Applying an event in the block transaction is the step that applies it. -/
theorem applyEvent_eq_stepEvent (e : Event) (s : State) : applyEvent e s = stepEvent e s := by
  unfold applyEvent stepEvent
  cases h : decode e.payload with
  | instr i => simp only [applyInstr_eq_exec (decode_isEvent h)]
  | malformed why => rfl

/-- The render step where frames are left. -/
theorem execRenderStep_of_lt {s : State} (h : s.cursor < s.frames.toNat) : execRenderStep s = .next s.renderFrame := by
  simp [execRenderStep, h]

/-- The step while the next event lies ahead of the cursor. -/
theorem step_render {s : State} {e : Event} (he : s.events[s.evIdx]? = some e) (h : s.cursor < e.offset.toNat) :
    step s = execRenderStep s := by
  simp [step, he, h, exec]

/-- The step that applies the next event. -/
theorem step_event {s : State} {e : Event} (he : s.events[s.evIdx]? = some e) (h : e.offset.toNat ≤ s.cursor) :
    step s = stepEvent e s := by
  have : ¬ s.cursor < e.offset.toNat := by omega
  simp [step, he, this]

/-- The step after the last event while frames are left. -/
theorem step_tail {s : State} (he : s.events[s.evIdx]? = none) (h : s.cursor < s.frames.toNat) :
    step s = execRenderStep s := by
  simp [step, he, h, exec]

/-- The step of an idle block. -/
theorem step_idle {s : State} (h : s.isIdle = true) : step s = stepIdle s := by
  simp only [State.isIdle, Bool.and_eq_true, decide_eq_true_eq] at h
  have he : s.events[s.evIdx]? = none := List.getElem?_eq_none h.1
  have hc : ¬ s.cursor < s.frames.toNat := by omega
  simp [step, he, hc]

end Sys2Proof.Machine
end

