-- ==== Sys2Proof/Laws/Encoding.lean ====
section
/-! SUPPORT. Decoding a complete message the encoder wrote, and the rows that take what no other row takes. -/

namespace Sys2Proof

theorem statusByte_split : ∀ b : Byte, statusByte (BitVec.ofNat 4 (messageType b)) (lowNibble b) = b := by decide +kernel

theorem dataByte_dataValue : ∀ b : Byte, isDataByte b = true → dataByte (dataValue b) = b := by decide +kernel

theorem statusByte_ne_sysex {type : BitVec 4} (h : type ≠ 0xF#4) (c : BitVec 4) : statusByte type c ≠ 0xF0#8 := by
  revert type c; decide +kernel

theorem dataBytesOk_statusByte {type : BitVec 4} (h : type ≠ 0xF#4) (c : BitVec 4) (data : List Byte) :
    dataBytesOk (statusByte type c) data = data.all isDataByte := by
  unfold dataBytesOk; rw [if_neg (statusByte_ne_sysex h c)]

/-- A three-byte channel message is complete and well-formed, so it decodes by its message type (R85, R86). -/
theorem decode_midi3 {type : BitVec 4} (h : type ∈ [0x8#4, 0x9#4, 0xA#4, 0xB#4, 0xE#4]) (c : BitVec 4) (d1 d2 : BitVec 7) :
    decode (midi3 type c d1 d2) = .instr (decodeMessage (statusByte type c) [dataByte d1, dataByte d2]) := by
  have ht : type ≠ 0xF#4 := by revert type; decide
  have hd : isDataByte (statusByte type c) = false := isDataByte_statusByte (by clear ht; revert type; decide) c
  have hl : ∀ d, lengthMatches (statusByte type c) d = (d.length == 2) := by
    simp at h; obtain rfl | rfl | rfl | rfl | rfl := h <;> intro d <;> simp [lengthMatches]
  simp [midi3, decode, decodeMidi, hd, hl, dataBytesOk_statusByte ht]

/-- A two-byte channel message likewise. -/
theorem decode_midi2 {type : BitVec 4} (h : type ∈ [0xC#4, 0xD#4]) (c : BitVec 4) (d1 : BitVec 7) :
    decode (midi2 type c d1) = .instr (decodeMessage (statusByte type c) [dataByte d1]) := by
  have ht : type ≠ 0xF#4 := by revert type; decide
  have hd : isDataByte (statusByte type c) = false := isDataByte_statusByte (by clear ht; revert type; decide) c
  have hl : ∀ d, lengthMatches (statusByte type c) d = (d.length == 1) := by
    simp at h; obtain rfl | rfl := h <;> intro d <;> simp [lengthMatches]
  simp [midi2, decode, decodeMidi, hd, hl, dataBytesOk_statusByte ht]

/-- A controller number without a row of its own (R87). -/
theorem decodeController_unmapped {c : BitVec 4} {k v : BitVec 7} (h : k.toNat ∉ mappedControllers) :
    decodeController c k v = .ccOther c k v := by
  unfold decodeController; simp [mappedControllers] at h; split <;> simp_all

/-- A key without a row of its own (R261). -/
theorem decodeProp_unmapped {key chan : Byte} {value : PropValue} (h : key.toNat ∉ mappedKeys) :
    decodeProp key chan value = .propUnknown key chan value := by
  unfold decodeProp; simp [mappedKeys] at h; split <;> simp_all

end Sys2Proof
end

