-- ==== Sys2Proof/Laws/Operations.lean ====
section
/-! SUPPORT. What the operations over all three channels and the register merges can do, said once. -/

namespace Sys2Proof.Machine

/-! ### Gates always answer a next state -/

theorem onChannel_total (c : BitVec 4) (s : State) (f : Fin 3 → State) : ∃ t, onChannel c s f = .next t := by
  unfold onChannel; split <;> exact ⟨_, rfl⟩

theorem onValue_total {α : Type} (o : Option α) (s : State) (f : α → State) : ∃ t, onValue o s f = .next t := by
  unfold onValue; split <;> exact ⟨_, rfl⟩

theorem onChannelValue_total {α : Type} (o : Option α) (chan : Byte) (s : State) (f : Fin 3 → α → State) :
    ∃ t, onChannelValue o chan s f = .next t := by
  unfold onChannelValue; split <;> exact ⟨_, rfl⟩

/-! ### The three channels in order -/

/-- `Retune` changes nothing but the trace. -/
theorem State.retune_eq (s : State) :
    s.retune = { s with chipTrace := s.chipTrace ++ s.tonesWhere fun k => (s.chan k).note != -1 } := by
  simp only [State.retune, State.toneUpdate_eq, State.tonesWhere]
  simp [State.sounding, Channel.sounding, State.chan, State.period]

/-- The three channels of `MOD_TICK` change nothing but the trace. -/
theorem State.modTick_eq (s : State) :
    s.modTick =
      { s with chipTrace := s.chipTrace ++ s.tonesWhere fun k => (s.chan k).note != -1 && !(s.chan k).depth.isZero } := by
  simp only [State.modTick, State.modTickChannel_eq, State.tonesWhere]
  simp [State.modulated, State.sounding, Channel.sounding, State.chan, State.period]

/-- All that one frame changes: the trace, the answer queue, both buffers at `CURSOR`, and the two counters. -/
theorem State.renderFrame_eq (s : State) :
    s.renderFrame =
      { s with
        chipTrace := s.modTick.chipTrace ++ [.render s.removeDc s.samplePair.1 s.samplePair.2]
        renderAnswers := s.renderAnswers.tail
        draws := s.draws + 1
        outL := s.outL.set s.cursor (some s.samplePair.1)
        outR := s.outR.set s.cursor (some s.samplePair.2)
        cursor := s.cursor + 1
        sampleCtr := s.sampleCtr + 1 } := by
  unfold State.renderFrame
  rw [State.modTick_eq]
  rfl

/-! ### The functions of every library (R169, R201, R203) -/

theorem le_sineRange (x : Binary64) :
    Binary64.le (Binary64.ofInt (-1)) (sineRange x) = true ∧ Binary64.le (sineRange x) (Binary64.ofInt 1) = true := by
  unfold sineRange
  split
  · simp_all
  · decide +kernel

theorem sineRange_of_le {x : Binary64} (h : Binary64.le (Binary64.ofInt (-1)) x = true)
    (h' : Binary64.le x (Binary64.ofInt 1) = true) : sineRange x = x := by
  simp [sineRange, h, h']

theorem fPow_of_isZero (p : Params) (x : Binary64) {y : Binary64} (h : y.isZero = true) : fPow p x y = Binary64.ofInt 1 := by
  simp [fPow, h]

/-! ### The envelope period merges (R168, R170) -/

theorem mergeCoarse_toNat (period : BitVec 16) (v : BitVec 7) :
    (mergeCoarse period v).toNat = v.toNat * 128 + period.toNat % 128 := by
  have h : (mergeCoarse period v).toNat = (v.toNat <<< 7) ||| (period.toNat &&& 127) := by
    have : v.toNat < 128 := v.isLt
    simp [mergeCoarse, BitVec.toNat_or, Nat.or_comm, Nat.shiftLeft_eq]
    rw [Nat.mod_eq_of_lt]; omega
  have hm : period.toNat &&& 127 = period.toNat % 128 := Nat.and_two_pow_sub_one_eq_mod _ 7
  rw [h, hm, ← Nat.shiftLeft_add_eq_or_of_lt (by omega : period.toNat % 128 < 2 ^ 7), Nat.shiftLeft_eq]

theorem mergeFine_toNat (period : BitVec 16) (v : BitVec 7) :
    (mergeFine period v).toNat = period.toNat / 128 * 128 + v.toNat := by
  have hv : v.toNat < 128 := v.isLt
  have h : mergeFine period v = (period >>> 7 <<< 7) ||| v.setWidth 16 := by
    unfold mergeFine
    congr 1
    ext i hi
    simp only [BitVec.getElem_and, BitVec.getElem_shiftLeft]
    by_cases h7 : i < 7
    · interval_cases i <;> simp
    · interval_cases i <;> simp_all
  have hs : (period >>> 7 <<< 7).toNat = (period.toNat / 128) <<< 7 := by
    have := period.isLt
    simp [Nat.shiftLeft_eq, Nat.shiftRight_eq_div_pow]; omega
  have hw : (v.setWidth 16).toNat = v.toNat := by simp; omega
  rw [h, BitVec.toNat_or, hs, hw, ← Nat.shiftLeft_add_eq_or_of_lt (by omega : v.toNat < 2 ^ 7), Nat.shiftLeft_eq]

end Sys2Proof.Machine
end

