-- ==== Sys2Proof/Laws/PerInstr.lean ====
section
/-! SUPPORT. The per-instruction family `EncodesExactlyEvents`: the encoder has a payload for an instruction exactly when it is
an event (R93: the internal operations "have no event encoding"). -/

namespace Sys2Proof.Laws.EncodesExactlyEvents

def Statement (i : Instr) : Prop := (encode i).isSome = i.isEvent

theorem noteOff (c : BitVec 4) (n v : BitVec 7) :
    Statement (.noteOff c n v) := rfl
theorem noteOnVel0 (c : BitVec 4) (n : BitVec 7) :
    Statement (.noteOnVel0 c n) := rfl
theorem noteOn (c : BitVec 4) (n v : BitVec 7) :
    Statement (.noteOn c n v) := rfl
theorem polyAftertouch (c : BitVec 4) (n p : BitVec 7) :
    Statement (.polyAftertouch c n p) := rfl
theorem ccModWheel (c : BitVec 4) (v : BitVec 7) :
    Statement (.ccModWheel c v) := rfl
theorem ccMainVolume (c : BitVec 4) (v : BitVec 7) :
    Statement (.ccMainVolume c v) := rfl
theorem ccPan (c : BitVec 4) (v : BitVec 7) :
    Statement (.ccPan c v) := rfl
theorem ccGp1Noise (c : BitVec 4) (v : BitVec 7) :
    Statement (.ccGp1Noise c v) := rfl
theorem ccGp2EnvCoarse (c : BitVec 4) (v : BitVec 7) :
    Statement (.ccGp2EnvCoarse c v) := rfl
theorem ccGp3EnvFine (c : BitVec 4) (v : BitVec 7) :
    Statement (.ccGp3EnvFine c v) := rfl
theorem ccGp4EnvShape (c : BitVec 4) (v : BitVec 7) :
    Statement (.ccGp4EnvShape c v) := rfl
theorem ccAllSoundOff (c : BitVec 4) (v : BitVec 7) :
    Statement (.ccAllSoundOff c v) := rfl
theorem ccResetControllers (c : BitVec 4) (v : BitVec 7) :
    Statement (.ccResetControllers c v) := rfl
theorem ccAllNotesOff (c : BitVec 4) (v : BitVec 7) :
    Statement (.ccAllNotesOff c v) := rfl
theorem ccOther (c : BitVec 4) (k v : BitVec 7) :
    Statement (.ccOther c k v) := rfl
theorem programChange (c : BitVec 4) (p : BitVec 7) :
    Statement (.programChange c p) := rfl
theorem channelPressure (c : BitVec 4) (p : BitVec 7) :
    Statement (.channelPressure c p) := rfl
theorem pitchBend (c : BitVec 4) (lsb msb : BitVec 7) :
    Statement (.pitchBend c lsb msb) := rfl
theorem systemReset :
    Statement (.systemReset) := rfl
theorem systemOther (status : BitVec 4) (data : List Byte) :
    Statement (.systemOther status data) := rfl
theorem propClock (chan : Byte) (value : PropValue) :
    Statement (.propClock chan value) := rfl
theorem propMode (chan : Byte) (value : PropValue) :
    Statement (.propMode chan value) := rfl
theorem propNoisePeriod (chan : Byte) (value : PropValue) :
    Statement (.propNoisePeriod chan value) := rfl
theorem propEnvPeriod (chan : Byte) (value : PropValue) :
    Statement (.propEnvPeriod chan value) := rfl
theorem propEnvHold (chan : Byte) (value : PropValue) :
    Statement (.propEnvHold chan value) := rfl
theorem propEnvAlternate (chan : Byte) (value : PropValue) :
    Statement (.propEnvAlternate chan value) := rfl
theorem propEnvAttack (chan : Byte) (value : PropValue) :
    Statement (.propEnvAttack chan value) := rfl
theorem propEnvContinue (chan : Byte) (value : PropValue) :
    Statement (.propEnvContinue chan value) := rfl
theorem propTonePeriod (chan : Byte) (value : PropValue) :
    Statement (.propTonePeriod chan value) := rfl
theorem propLevel (chan : Byte) (value : PropValue) :
    Statement (.propLevel chan value) := rfl
theorem propEnvOn (chan : Byte) (value : PropValue) :
    Statement (.propEnvOn chan value) := rfl
theorem propToneOn (chan : Byte) (value : PropValue) :
    Statement (.propToneOn chan value) := rfl
theorem propNoiseOn (chan : Byte) (value : PropValue) :
    Statement (.propNoiseOn chan value) := rfl
theorem propUnknown (key chan : Byte) (value : PropValue) :
    Statement (.propUnknown key chan value) := rfl
theorem block (n : BitVec 32) (events : List Event) :
    Statement (.block n events) := rfl
theorem renderStep :
    Statement (.renderStep) := rfl
theorem modTick :
    Statement (.modTick) := rfl
theorem construct (cap : Bool) (sampleRate : Binary64) (removeDc : Bool) (params : Params) :
    Statement (.construct cap sampleRate removeDc params) := rfl

end Sys2Proof.Laws.EncodesExactlyEvents
end

