-- ==== Sys2Proof/Laws/Rounding.lean ====
section
/-! SUPPORT. Rounding keeps order, and what follows for results of bounded magnitude: the range of a pitch bend. -/
namespace Sys2Proof.Binary64

theorem topBit_spec : ∀ (k n : Nat), 0 < n → n < 2 ^ 2 ^ k → 2 ^ topBit k n ≤ n ∧ n < 2 ^ (topBit k n + 1) := by
  intro k
  induction k with
  | zero => intro n h0 h1; simp [topBit] at *; omega
  | succ k ih =>
    intro n h0 h1
    simp only [topBit]
    have hp : 0 < 2 ^ 2 ^ k := by positivity
    split
    · next h =>
      have hlt : n / 2 ^ 2 ^ k < 2 ^ 2 ^ k := by
        rw [Nat.div_lt_iff_lt_mul hp, ← pow_add, ← two_mul, mul_comm, ← pow_succ]; exact h1
      obtain ⟨ha, hb⟩ := ih _ (Nat.div_pos h hp) hlt
      refine ⟨?_, ?_⟩
      · rw [pow_add, mul_comm]; exact (Nat.le_div_iff_mul_le hp).1 ha
      · rw [add_assoc, pow_add, mul_comm]; exact (Nat.div_lt_iff_lt_mul hp).1 hb
    · next h => exact ih n h0 (by omega)

theorem log2_spec {n : Nat} (h : 0 < n) : 2 ^ log2 n ≤ n ∧ n < 2 ^ (log2 n + 1) := by
  unfold log2
  split
  · next h1 => exact topBit_spec 13 n h (lt_of_lt_of_eq h1 (congrArg (2 ^ ·) (by norm_num : 8192 = 2 ^ 13)))
  · exact ⟨Nat.log2_self_le (by omega), Nat.lt_log2_self⟩

/-- Rounding `n / d` to the nearest integer, ties to even. -/
def nearest (n d : Nat) : Nat := if d < 2 * (n % d) ∨ (2 * (n % d) = d ∧ n / d % 2 = 1) then n / d + 1 else n / d

/-- The nearest integer is within one half, and even at a tie. -/
theorem nearest_spec {n d : Nat} (hd : 0 < d) : 
    2 * n ≤ d * (2 * nearest n d + 1) ∧ d * (2 * nearest n d) ≤ 2 * n + d ∧
    (2 * n = d * (2 * nearest n d + 1) → nearest n d % 2 = 0) ∧ (d * (2 * nearest n d) = 2 * n + d → nearest n d % 2 = 0) := by
  have h := Nat.div_add_mod n d
  have hm := Nat.mod_lt n hd
  unfold nearest
  generalize n / d = q at *
  generalize n % d = r at *
  subst h
  split
  · next h1 =>
    refine ⟨by nlinarith, by rcases h1 with h1 | h1 <;> nlinarith, fun h2 => ?_, fun h2 => ?_⟩
    · exfalso; nlinarith
    · have : 2 * r = d := by nlinarith
      omega
  · next h1 =>
    have h3 : 2 * r ≤ d := by omega
    refine ⟨by nlinarith, by nlinarith, fun h2 => ?_, fun h2 => ?_⟩
    · have : 2 * r = d := by nlinarith
      omega
    · exfalso; nlinarith

/-- Rounding to an integer keeps order. -/
theorem nearest_mono {n d n' d' : Nat} (hd : 0 < d) (hd' : 0 < d') (h : n * d' ≤ n' * d) : nearest n d ≤ nearest n' d' := by
  by_contra hc
  have hlt : nearest n' d' + 1 ≤ nearest n d := by omega
  obtain ⟨_, a2, _, a4⟩ := nearest_spec (n := n) hd
  obtain ⟨b1, _, b3, _⟩ := nearest_spec (n := n') hd'
  generalize nearest n d = m at *
  generalize nearest n' d' = m' at *
  have e1 : d * (2 * m' + 1) ≤ 2 * n := by nlinarith
  have e2 : d * (2 * m' + 1) * d' ≤ 2 * n * d' := Nat.mul_le_mul_right _ e1
  have e3 : 2 * n' * d ≤ d' * (2 * m' + 1) * d := Nat.mul_le_mul_right _ b1
  have e4 : 2 * n * d' = 2 * n' * d := by nlinarith
  have e5 : 2 * n' * d = d' * (2 * m' + 1) * d := by nlinarith
  have e6 : 2 * n' = d' * (2 * m' + 1) := Nat.eq_of_mul_eq_mul_right hd e5
  have e7 : d * (2 * m' + 1) * d' = 2 * n * d' := by nlinarith
  have e8 : d * (2 * m' + 1) = 2 * n := Nat.eq_of_mul_eq_mul_right hd' e7
  have e9 : m = m' + 1 := by
    have : d * (2 * m) ≤ d * (2 * m' + 2) := by nlinarith
    have := Nat.le_of_mul_le_mul_left this hd
    omega
  have o1 := b3 e6
  have o2 := a4 (by subst e9; nlinarith)
  omega
/-- The `b` of `roundField`. -/
def blockOf (num den : Nat) : Nat :=
  if den * 2 ^ (log2 num - log2 den) ≤ num * 2 ^ (log2 den - log2 num) then log2 num + 1022 - log2 den
  else log2 num + 1021 - log2 den

theorem roundField_eq {num den : Nat} (h : num ≠ 0) : roundField num den =
    min (nearest (num * 2 ^ (1074 - blockOf num den)) (den * 2 ^ (blockOf num den - 1074)) + blockOf num den * 2 ^ 52)
      (2047 * 2 ^ 52) := by
  unfold roundField
  rw [if_neg h]
  rfl

theorem two_zpow_sub (a b : Nat) : (2 : ℚ) ^ ((a : ℤ) - b) = 2 ^ (a - b) / 2 ^ (b - a) := by
  rcases le_total a b with h | h
  · rw [Nat.sub_eq_zero_of_le h, show (a : ℤ) - b = -((b - a : Nat) : ℤ) by omega, zpow_neg, zpow_natCast]; simp
  · rw [Nat.sub_eq_zero_of_le h, show (a : ℤ) - b = ((a - b : Nat) : ℤ) by omega, zpow_natCast]; simp

/-- The binary exponent of `num / den`. -/
theorem exists_exponent {num den : Nat} (hn : 0 < num) (hd : 0 < den) :
    ∃ e : ℤ, blockOf num den = (e + 1022).toNat ∧ (2 : ℚ) ^ e ≤ num / den ∧ (num / den : ℚ) < 2 ^ (e + 1) := by
  obtain ⟨n1, n2⟩ := log2_spec hn
  obtain ⟨d1, d2⟩ := log2_spec hd
  have hdq : (0 : ℚ) < den := by exact_mod_cast hd
  have q1 : (2 : ℚ) ^ log2 num ≤ num := by exact_mod_cast n1
  have q2 : (num : ℚ) < 2 ^ (log2 num + 1) := by exact_mod_cast n2
  have q3 : (2 : ℚ) ^ log2 den ≤ den := by exact_mod_cast d1
  have q4 : (den : ℚ) < 2 ^ (log2 den + 1) := by exact_mod_cast d2
  unfold blockOf
  generalize log2 num = L at *
  generalize log2 den = D at *
  have hT : den * 2 ^ (L - D) ≤ num * 2 ^ (D - L) ↔ (2 : ℚ) ^ ((L : ℤ) - D) ≤ num / den := by
    rw [two_zpow_sub, div_le_div_iff₀ (by positivity) hdq, mul_comm]
    exact_mod_cast Iff.rfl
  split
  · next h =>
    refine ⟨(L : ℤ) - D, by omega, hT.1 h, ?_⟩
    rw [show (L : ℤ) - D + 1 = ((L + 1 : Nat) : ℤ) - D by omega, zpow_sub₀ (by norm_num), zpow_natCast, zpow_natCast]
    exact (div_lt_div_of_pos_right q2 hdq).trans_le (div_le_div_of_nonneg_left (by positivity) (by positivity) q3)
  · next h =>
    refine ⟨(L : ℤ) - D - 1, by omega, ?_, ?_⟩
    · rw [show (L : ℤ) - D - 1 = (L : ℤ) - ((D + 1 : Nat) : ℤ) by omega, zpow_sub₀ (by norm_num), zpow_natCast, zpow_natCast]
      exact (div_le_div_of_nonneg_left (by positivity) hdq q4.le).trans (div_le_div_of_nonneg_right q1 hdq.le)
    · rw [show (L : ℤ) - D - 1 + 1 = (L : ℤ) - D by omega]
      exact lt_of_not_ge fun hc => h (hT.2 hc)

theorem scaled_eq (num den b : Nat) :
    ((num * 2 ^ (1074 - b) : Nat) : ℚ) / ((den * 2 ^ (b - 1074) : Nat) : ℚ) = num / den / 2 ^ ((b : ℤ) - 1074) := by
  rw [show ((1074 : ℤ)) = ((1074 : Nat) : ℤ) from rfl, two_zpow_sub]
  push_cast
  generalize (2 : ℚ) ^ (1074 - b) = x
  by_cases hx : (2 : ℚ) ^ (b - 1074) = 0
  · simp [hx]
  · rw [div_div_eq_mul_div, div_mul_eq_mul_div, div_div]

/-- The significand of a rounding is below `2 ^ 53` before it is rounded, and from `2 ^ 52` up when it is not subnormal. -/
theorem scaled_bounds {num den : Nat} (hn : 0 < num) (hd : 0 < den) :
    num * 2 ^ (1074 - blockOf num den) < den * 2 ^ (blockOf num den - 1074) * 2 ^ 53 ∧
    (0 < blockOf num den → den * 2 ^ (blockOf num den - 1074) * 2 ^ 52 ≤ num * 2 ^ (1074 - blockOf num den)) := by
  obtain ⟨e, hb, h1, h2⟩ := exists_exponent hn hd
  generalize blockOf num den = b at *
  have hs := scaled_eq num den b
  have hpos : (0 : ℚ) < ((den * 2 ^ (b - 1074) : Nat) : ℚ) := by exact_mod_cast (by positivity)
  have hz : (0 : ℚ) < 2 ^ ((b : ℤ) - 1074) := by positivity
  generalize num * 2 ^ (1074 - b) = n at *
  generalize den * 2 ^ (b - 1074) = d at *
  refine ⟨?_, fun hb0 => ?_⟩
  · have : (n / d : ℚ) < 2 ^ 53 := by
      rw [hs, div_lt_iff₀ hz]
      refine h2.trans_le ?_
      rw [show (2 : ℚ) ^ 53 = 2 ^ (53 : ℤ) by norm_num, ← zpow_add₀ (by norm_num)]
      exact zpow_le_zpow_right₀ (by norm_num) (by omega)
    rw [div_lt_iff₀ hpos, mul_comm] at this
    exact_mod_cast this
  · have : (2 : ℚ) ^ 52 ≤ n / d := by
      rw [hs, le_div_iff₀ hz]
      refine le_trans ?_ h1
      rw [show (2 : ℚ) ^ 52 = 2 ^ (52 : ℤ) by norm_num, ← zpow_add₀ (by norm_num)]
      exact zpow_le_zpow_right₀ (by norm_num) (by omega)
    rw [le_div_iff₀ hpos, mul_comm] at this
    exact_mod_cast this

/-- Bounds by an integer survive rounding to an integer. -/
theorem nearest_le {n d k : Nat} (hd : 0 < d) (h : n ≤ d * k) : nearest n d ≤ k := by
  have := nearest_mono hd Nat.one_pos (n := n) (n' := k) (by rw [mul_comm k d]; omega)
  have hk : nearest k 1 = k := by simp [nearest, Nat.mod_one]
  omega

theorem le_nearest {n d k : Nat} (hd : 0 < d) (h : d * k ≤ n) : k ≤ nearest n d := by
  have := nearest_mono Nat.one_pos hd (n := k) (n' := n) (by rw [mul_comm k d]; omega)
  have hk : nearest k 1 = k := by simp [nearest, Nat.mod_one]
  omega

/-- Rounding keeps order. -/
theorem roundField_mono {num den num' den' : Nat} (hd : 0 < den) (hd' : 0 < den') (h : num * den' ≤ num' * den) :
    roundField num den ≤ roundField num' den' := by
  rcases Nat.eq_zero_or_pos num with rfl | hn
  · simp [roundField]
  have hn' : 0 < num' := by
    rcases Nat.eq_zero_or_pos num' with rfl | h'
    · have : 0 < num * den' := by positivity
      omega
    · exact h'
  rw [roundField_eq (by omega), roundField_eq (by omega)]
  obtain ⟨u1, l1⟩ := scaled_bounds hn hd
  obtain ⟨u2, l2⟩ := scaled_bounds hn' hd'
  generalize blockOf num den = b at *
  generalize blockOf num' den' = b' at *
  refine min_le_min_right _ ?_
  have p1 : 0 < den * 2 ^ (b - 1074) := by positivity
  have p2 : 0 < den' * 2 ^ (b' - 1074) := by positivity
  rcases lt_trichotomy b b' with hb | rfl | hb
  · have m1 := nearest_le p1 u1.le
    have m2 := le_nearest p2 (l2 (by omega))
    have : (b + 1) * 2 ^ 52 ≤ b' * 2 ^ 52 := Nat.mul_le_mul_right _ hb
    omega
  · refine Nat.add_le_add_right (nearest_mono p1 p2 ?_) _
    calc num * 2 ^ (1074 - b) * (den' * 2 ^ (b - 1074)) = num * den' * (2 ^ (1074 - b) * 2 ^ (b - 1074)) := by ring
      _ ≤ num' * den * (2 ^ (1074 - b) * 2 ^ (b - 1074)) := Nat.mul_le_mul_right _ h
      _ = _ := by ring
  · exfalso
    have l1 := l1 (by omega)
    have s1 := scaled_eq num den b
    have s2 := scaled_eq num' den' b'
    generalize num * 2 ^ (1074 - b) = n1 at *
    generalize num' * 2 ^ (1074 - b') = n2 at *
    generalize den * 2 ^ (b - 1074) = d1 at *
    generalize den' * 2 ^ (b' - 1074) = d2 at *
    have q1 : (0 : ℚ) < d1 := by exact_mod_cast p1
    have q2 : (0 : ℚ) < d2 := by exact_mod_cast p2
    have z1 : (0 : ℚ) < 2 ^ ((b : ℤ) - 1074) := by positivity
    have z2 : (0 : ℚ) < 2 ^ ((b' : ℤ) - 1074) := by positivity
    have x1 : (2 : ℚ) ^ 52 ≤ num / den / 2 ^ ((b : ℤ) - 1074) := by
      rw [← s1, le_div_iff₀ q1, mul_comm]; exact_mod_cast l1
    have x2 : (num' / den' / 2 ^ ((b' : ℤ) - 1074) : ℚ) < 2 ^ 53 := by
      rw [← s2, div_lt_iff₀ q2, mul_comm]; exact_mod_cast u2
    rw [le_div_iff₀ z1] at x1
    rw [div_lt_iff₀ z2] at x2
    have hx : (num / den : ℚ) ≤ num' / den' := by
      rw [div_le_div_iff₀ (by exact_mod_cast hd) (by exact_mod_cast hd')]; exact_mod_cast h
    have hz : (2 : ℚ) ^ 53 * 2 ^ ((b' : ℤ) - 1074) ≤ 2 ^ 52 * 2 ^ ((b : ℤ) - 1074) := by
      rw [show (2 : ℚ) ^ 53 = 2 ^ (53 : ℤ) by norm_num, show (2 : ℚ) ^ 52 = 2 ^ (52 : ℤ) by norm_num,
        ← zpow_add₀ (by norm_num), ← zpow_add₀ (by norm_num)]
      exact zpow_le_zpow_right₀ (by norm_num) (by omega)
    linarith

/-! ### Results with a bounded magnitude -/

/-- The units a magnitude field stands for. -/
def fieldUnits (f : Nat) : Nat := if f / 2 ^ 52 = 0 then f % 2 ^ 52 else (f % 2 ^ 52 + 2 ^ 52) * 2 ^ (f / 2 ^ 52 - 1)

theorem fieldUnits_mono {f g : Nat} (h : f ≤ g) : fieldUnits f ≤ fieldUnits g := by
  have hf := Nat.div_add_mod f (2 ^ 52)
  have hg := Nat.div_add_mod g (2 ^ 52)
  have hfm := Nat.mod_lt f (show 0 < 2 ^ 52 by norm_num)
  have hgm := Nat.mod_lt g (show 0 < 2 ^ 52 by norm_num)
  unfold fieldUnits
  generalize f / 2 ^ 52 = a at *
  generalize g / 2 ^ 52 = b at *
  generalize f % 2 ^ 52 = r at *
  generalize g % 2 ^ 52 = t at *
  generalize 2 ^ 52 = K at *
  have hab : a ≤ b := by
    by_contra hc
    have : K * (b + 1) ≤ K * a := Nat.mul_le_mul_left _ (by omega)
    rw [Nat.mul_add] at this; omega
  rcases Nat.eq_or_lt_of_le hab with rfl | hlt
  · have : r ≤ t := by omega
    split
    · exact this
    · exact Nat.mul_le_mul_right _ (by omega)
  · rw [if_neg (by omega : ¬ b = 0)]
    have hK : K ≤ (t + K) * 2 ^ (b - 1) := le_trans (by omega) (Nat.le_mul_of_pos_right (t + K) (by positivity))
    split
    · omega
    · next ha =>
      calc (r + K) * 2 ^ (a - 1) ≤ 2 * K * 2 ^ (a - 1) := Nat.mul_le_mul_right _ (by omega)
        _ = K * 2 ^ (a - 1 + 1) := by rw [pow_succ]; ring
        _ ≤ K * 2 ^ (b - 1) := Nat.mul_le_mul_left _ (Nat.pow_le_pow_right (by omega) (by omega))
        _ ≤ (t + K) * 2 ^ (b - 1) := Nat.mul_le_mul_right _ (by omega)

theorem roundField_le_inf (num den : Nat) : roundField num den ≤ 2047 * 2 ^ 52 := by
  unfold roundField
  split
  · omega
  · exact Nat.min_le_right _ _

section
variable {neg : Bool} {f : Nat} (hf : f < 2047 * 2 ^ 52)
include hf

theorem ofFields_bits : (ofFields neg f).bits.toNat = (if neg then 2 ^ 63 else 0) + f := by
  unfold ofFields
  cases neg <;> simp <;> omega

theorem isNeg_ofFields : (ofFields neg f).isNeg = neg := by
  have h := ofFields_bits (neg := neg) hf
  unfold isNeg
  rw [BitVec.msb_eq_decide, h]
  cases neg <;> simp
  omega

theorem expField_ofFields : (ofFields neg f).expField = f / 2 ^ 52 := by
  unfold expField
  rw [ofFields_bits hf]
  cases neg <;> simp <;> omega

theorem fraction_ofFields : (ofFields neg f).fraction = f % 2 ^ 52 := by
  unfold fraction
  rw [ofFields_bits hf]
  cases neg <;> simp
  omega

theorem isFinite_ofFields : (ofFields neg f).isFinite = true := by
  unfold isFinite
  rw [expField_ofFields hf]
  simp; omega

theorem isNaN_ofFields : (ofFields neg f).isNaN = false := by
  unfold isNaN
  rw [expField_ofFields hf]
  simp; omega

theorem isInf_ofFields : (ofFields neg f).isInf = false := by
  unfold isInf
  rw [expField_ofFields hf]
  simp; omega

theorem isZero_ofFields : (ofFields neg f).isZero = decide (f = 0) := by
  unfold isZero
  rw [ofFields_bits hf]
  have h : ((if neg then 2 ^ 63 else 0) + f) % 2 ^ 63 = f := by cases neg <;> simp <;> omega
  rw [h]
  rfl

theorem isPositive_ofFields (h0 : 0 < f) : (ofFields false f).isPositive = true := by
  have hz : f ≠ 0 := by omega
  simp [isPositive, isFinite_ofFields hf, isNeg_ofFields hf, isZero_ofFields hf, hz]

theorem units_ofFields : (ofFields neg f).units = fieldUnits f := by
  unfold units fieldUnits
  rw [expField_ofFields hf, fraction_ofFields hf]

theorem signedUnits_ofFields : (ofFields neg f).signedUnits = if neg then -(fieldUnits f : Int) else fieldUnits f := by
  unfold signedUnits
  rw [isNeg_ofFields hf, units_ofFields hf]

end

/-- Every finite value is a sign over a magnitude field below the infinity's. -/
theorem exists_ofFields {x : Binary64} (h : x.isFinite = true) : ∃ f, f < 2047 * 2 ^ 52 ∧ x = ofFields x.isNeg f := by
  refine ⟨x.bits.toNat % 2 ^ 63, ?_, ?_⟩
  · unfold isFinite expField at h
    simp at h
    omega
  · obtain ⟨b⟩ := x
    unfold ofFields isNeg
    rw [BitVec.msb_eq_decide]
    congr 1
    apply BitVec.eq_of_toNat_eq
    have := b.isLt
    simp only [BitVec.toNat_ofNat]
    split <;> simp_all <;> omega

/-- A zero times a finite value is a zero. -/
theorem mul_of_isZero {x y : Binary64} (hx : x.isZero = true) (hy : y.isFinite = true) : ∃ neg, x.mul y = zero neg := by
  have hfin : x.isFinite = true := by
    unfold isZero at hx
    unfold isFinite expField
    simp at *
    omega
  obtain ⟨f, hf, ex⟩ := exists_ofFields hfin
  obtain ⟨g, hg, ey⟩ := exists_ofFields hy
  rw [ex, isZero_ofFields hf] at hx
  obtain rfl : f = 0 := by simpa using hx
  refine ⟨x.isNeg != y.isNeg, ?_⟩
  rw [ex, ey]
  simp [mul, isNaN_ofFields hf, isNaN_ofFields hg, isInf_ofFields hf, isInf_ofFields hg, isNeg_ofFields hf,
    isNeg_ofFields hg, units_ofFields hf, units_ofFields hg, roundRatio, fieldUnits, roundField, zero]

/-- Dividing by a positive value keeps order and sign. -/
theorem div_ofFields {neg : Bool} {f F g : Nat} (h : f ≤ F) (hF : F < 2047 * 2 ^ 52) (hg : g < 2047 * 2 ^ 52)
    (hg0 : 0 < fieldUnits g) : ∃ q, (ofFields neg f).div (ofFields false g) = ofFields neg q ∧
      q ≤ roundField (fieldUnits F) (fieldUnits g) := by
  have hf : f < 2047 * 2 ^ 52 := by omega
  have hgz : g ≠ 0 := by rintro rfl; simp [fieldUnits] at hg0
  refine ⟨roundField (fieldUnits f) (fieldUnits g), ?_, roundField_mono hg0 hg0 (Nat.mul_le_mul_right _ (fieldUnits_mono h))⟩
  simp [div, isNaN_ofFields hf, isNaN_ofFields hg, isInf_ofFields hf, isInf_ofFields hg, isZero_ofFields hg, hgz,
    isNeg_ofFields hf, isNeg_ofFields hg, units_ofFields hf, units_ofFields hg, roundRatio]

/-- Multiplying by a positive value keeps order and sign. -/
theorem mul_ofFields {neg : Bool} {f F g : Nat} (h : f ≤ F) (hF : F < 2047 * 2 ^ 52) (hg : g < 2047 * 2 ^ 52) :
    ∃ q, (ofFields neg f).mul (ofFields false g) = ofFields neg q ∧
      q ≤ roundField (fieldUnits F * fieldUnits g) (unitsPerOne * unitsPerOne) := by
  have hf : f < 2047 * 2 ^ 52 := by omega
  have hu : 0 < unitsPerOne * unitsPerOne := by unfold unitsPerOne; positivity
  refine ⟨roundField (fieldUnits f * fieldUnits g) (unitsPerOne * unitsPerOne), ?_,
    roundField_mono hu hu (Nat.mul_le_mul_right _ (Nat.mul_le_mul_right _ (fieldUnits_mono h)))⟩
  simp [mul, isNaN_ofFields hf, isNaN_ofFields hg, isInf_ofFields hf, isInf_ofFields hg,
    isNeg_ofFields hf, isNeg_ofFields hg, units_ofFields hf, units_ofFields hg, roundRatio]

theorem ofInt_ofFields {z : Int} {n : Nat} (h : z.natAbs ≤ n) :
    ∃ f, ofInt z = ofFields (decide (z < 0)) f ∧ f ≤ roundField n 1 :=
  ⟨_, rfl, roundField_mono Nat.one_pos Nat.one_pos (by omega)⟩

end Sys2Proof.Binary64

namespace Sys2Proof.Machine
open Binary64

/-- A bend lies between -12 and 11.99853515625 semitones (R206, R38). -/
theorem bendSemitones_range (lsb msb : BitVec 7) :
    le (ofInt (-12)) (bendSemitones lsb msb) = true ∧
    le (bendSemitones lsb msb) (ofDecimal 1199853515625 100000000000) = true := by
  have c1 : ofInt 8192 = ofFields false 0x40C0000000000000 := by decide +kernel
  have c2 : ofInt 12 = ofFields false 0x4028000000000000 := by decide +kernel
  have c3 : ofInt (-12) = ofFields true 0x4028000000000000 := by decide +kernel
  have c4 : ofDecimal 1199853515625 100000000000 = ofFields false 0x4027FF4000000000 := by decide +kernel
  have r1 : roundField 8192 1 = 0x40C0000000000000 := by decide +kernel
  have r2 : roundField 8191 1 = 0x40BFFF0000000000 := by decide +kernel
  have d1 : roundField (fieldUnits 0x40C0000000000000) (fieldUnits 0x40C0000000000000) = 0x3FF0000000000000 := by decide +kernel
  have d2 : roundField (fieldUnits 0x40BFFF0000000000) (fieldUnits 0x40C0000000000000) = 0x3FEFFF0000000000 := by decide +kernel
  have m1 : roundField (fieldUnits 0x3FF0000000000000 * fieldUnits 0x4028000000000000) (unitsPerOne * unitsPerOne) =
    0x4028000000000000 := by decide +kernel
  have m2 : roundField (fieldUnits 0x3FEFFF0000000000 * fieldUnits 0x4028000000000000) (unitsPerOne * unitsPerOne) =
    0x4027FF4000000000 := by decide +kernel
  have p1 : 0 < fieldUnits 0x40C0000000000000 := by decide +kernel
  have hv : bendValue lsb msb < 16384 := by
    have := lsb.isLt; have := msb.isLt; unfold bendValue; omega
  unfold bendSemitones
  rw [c1, c2, c3, c4]
  generalize bendValue lsb msb = v at *
  by_cases hz : (v : Int) - 8192 < 0
  · obtain ⟨f, hf, lf⟩ := ofInt_ofFields (show ((v : Int) - 8192).natAbs ≤ 8192 by omega)
    rw [r1] at lf
    obtain ⟨q, hq, lq⟩ := div_ofFields (neg := decide ((v : Int) - 8192 < 0)) lf (by norm_num) (by norm_num) p1
    rw [d1] at lq
    obtain ⟨w, hw, lw⟩ := mul_ofFields (neg := decide ((v : Int) - 8192 < 0)) (g := 0x4028000000000000) lq (by norm_num) (by norm_num)
    rw [m1] at lw
    rw [hf, hq, hw]
    have hw' : w < 2047 * 2 ^ 52 := by omega
    have hu := fieldUnits_mono lw
    simp only [hz, decide_true, le, isFinite_ofFields hw', signedUnits_ofFields hw',
      isFinite_ofFields (show 0x4028000000000000 < 2047 * 2 ^ 52 by norm_num),
      signedUnits_ofFields (show 0x4028000000000000 < 2047 * 2 ^ 52 by norm_num),
      isFinite_ofFields (show 0x4027FF4000000000 < 2047 * 2 ^ 52 by norm_num),
      signedUnits_ofFields (show 0x4027FF4000000000 < 2047 * 2 ^ 52 by norm_num), Bool.true_and, if_true, decide_eq_true_eq]
    clear d1 d2 m1 m2 p1
    generalize fieldUnits w = a at *
    generalize fieldUnits 0x4028000000000000 = b at *
    generalize fieldUnits 0x4027FF4000000000 = c at *
    constructor
    · omega
    · simp
  · obtain ⟨f, hf, lf⟩ := ofInt_ofFields (show ((v : Int) - 8192).natAbs ≤ 8191 by omega)
    rw [r2] at lf
    obtain ⟨q, hq, lq⟩ := div_ofFields (neg := decide ((v : Int) - 8192 < 0)) lf (by norm_num) (by norm_num) p1
    rw [d2] at lq
    obtain ⟨w, hw, lw⟩ := mul_ofFields (neg := decide ((v : Int) - 8192 < 0)) (g := 0x4028000000000000) lq (by norm_num) (by norm_num)
    rw [m2] at lw
    rw [hf, hq, hw]
    have hw' : w < 2047 * 2 ^ 52 := by omega
    have hu := fieldUnits_mono lw
    simp only [hz, decide_false, le, isFinite_ofFields hw', signedUnits_ofFields hw',
      isFinite_ofFields (show 0x4028000000000000 < 2047 * 2 ^ 52 by norm_num),
      signedUnits_ofFields (show 0x4028000000000000 < 2047 * 2 ^ 52 by norm_num),
      isFinite_ofFields (show 0x4027FF4000000000 < 2047 * 2 ^ 52 by norm_num),
      signedUnits_ofFields (show 0x4027FF4000000000 < 2047 * 2 ^ 52 by norm_num), Bool.true_and, if_true, decide_eq_true_eq]
    clear d1 d2 m1 m2 p1
    generalize fieldUnits w = a at *
    generalize fieldUnits 0x4028000000000000 = b at *
    generalize fieldUnits 0x4027FF4000000000 = c at *
    constructor <;> simp
    omega

end Sys2Proof.Machine
end

