-- ==== Sys2Proof/Tests/Slice0.lean ====
section
/-! SUPPORT. The model's own tests: ill-formed terms refused, one word of every encodable row decoded (bytes written out from the
spec's bit patterns), and vectors of spec/95_test_vectors.md under the reference functions. -/

-- The kernel evaluations below are checked one after another: run side by side they ask for more threads than the sandbox gives.
set_option Elab.async false

namespace Sys2Proof.Tests

open Sys2Proof.Machine

/-! ### WellFormed: one ill-formed term for each check -/

theorem test_wf_noteOn_velocity_0 : Instr.wellFormed (.noteOn 0 60 0) = false := by decide
theorem test_wf_ccOther_mapped : Instr.wellFormed (.ccOther 0 7 1) = false := by decide
theorem test_wf_systemOther_reset_status : Instr.wellFormed (.systemOther 0xF []) = false := by decide
theorem test_wf_systemOther_length : Instr.wellFormed (.systemOther 0x8 [0x10]) = false := by decide
theorem test_wf_systemOther_data_bit : Instr.wellFormed (.systemOther 0x2 [0x80, 0x00]) = false := by decide
theorem test_wf_systemOther_sysex_data : Instr.wellFormed (.systemOther 0x0 [0x7E, 0xF7, 0x01]) = false := by decide
theorem test_wf_propUnknown_mapped : Instr.wellFormed (.propUnknown 0x10 0 (.int 5)) = false := by decide
theorem test_wf_construct_rate_zero :
    Instr.wellFormed (.construct true ⟨0#64⟩ false ⟨.retrigger, .asNoteOn, .reference⟩) = false := by decide

/-! ### Decode: the words of 30_encoding.md and 95_test_vectors.md section 2.1 -/

theorem test_decode_noteOff : decode (.midi [0b10000010, 0b00111100, 0b01000000]) = .instr (.noteOff 2 60 64) := by decide
theorem test_decode_noteOnVel0 : decode (.midi [0b10010000, 0b00111100, 0b00000000]) = .instr (.noteOnVel0 0 60) := by decide
theorem test_decode_noteOn : decode (.midi [0b10010000, 0b00101101, 0b01111111]) = .instr (.noteOn 0 45 127) := by decide
theorem test_decode_polyAftertouch : decode (.midi [0b10100000, 0b00101101, 0b01000000]) = .instr (.polyAftertouch 0 45 64) := by decide
theorem test_decode_modWheel : decode (.midi [0b10110000, 0b00000001, 0b01111111]) = .instr (.ccModWheel 0 127) := by decide
theorem test_decode_mainVolume : decode (.midi [0b10110010, 0b00000111, 0b01111111]) = .instr (.ccMainVolume 2 127) := by decide
theorem test_decode_pan : decode (.midi [0b10110001, 0b00001010, 0b00000010]) = .instr (.ccPan 1 2) := by decide
theorem test_decode_gp1 : decode (.midi [0b10110011, 0b00010000, 0b01100100]) = .instr (.ccGp1Noise 3 100) := by decide
theorem test_decode_gp2 : decode (.midi [0b10110000, 0b00010001, 0b01111111]) = .instr (.ccGp2EnvCoarse 0 127) := by decide
theorem test_decode_gp3 : decode (.midi [0b10110000, 0b00010010, 0b00000001]) = .instr (.ccGp3EnvFine 0 1) := by decide
theorem test_decode_gp4 : decode (.midi [0b10110000, 0b00010011, 0b01110000]) = .instr (.ccGp4EnvShape 0 112) := by decide
theorem test_decode_allSoundOff : decode (.midi [0b10110000, 0b01111000, 0b00000000]) = .instr (.ccAllSoundOff 0 0) := by decide
theorem test_decode_resetControllers : decode (.midi [0b10110000, 0b01111001, 0b00000000]) = .instr (.ccResetControllers 0 0) := by decide
theorem test_decode_allNotesOff : decode (.midi [0b10110010, 0b01111011, 0b00000000]) = .instr (.ccAllNotesOff 2 0) := by decide
theorem test_decode_ccOther : decode (.midi [0b10110000, 0b01111100, 0b00000000]) = .instr (.ccOther 0 124 0) := by decide
theorem test_decode_programChange : decode (.midi [0b11000001, 0b00000101]) = .instr (.programChange 1 5) := by decide
theorem test_decode_channelPressure : decode (.midi [0b11010000, 0b01000000]) = .instr (.channelPressure 0 64) := by decide
theorem test_decode_pitchBend : decode (.midi [0b11100000, 0b00101011, 0b01010101]) = .instr (.pitchBend 0 0x2B 0x55) := by decide
theorem test_decode_systemReset : decode (.midi [0b11111111]) = .instr .systemReset := by decide
theorem test_decode_systemOther : decode (.midi [0b11111000]) = .instr (.systemOther 8 []) := by decide
theorem test_decode_sysex : decode (.midi [0xF0, 0x7E, 0x01, 0xF7]) = .instr (.systemOther 0 [0x7E, 0x01, 0xF7]) := by decide
theorem test_decode_wrongLength_short : decode (.midi [0x90, 0x2D]) = .malformed .wrongLength := by decide
theorem test_decode_wrongLength_long : decode (.midi [0xC0, 0x05, 0x00]) = .malformed .wrongLength := by decide
theorem test_decode_badDataByte : decode (.midi [0x90, 0x2D, 0x80]) = .malformed .badDataByte := by decide
theorem test_decode_runningStatus : decode (.midi [0x2D, 0x7F]) = .malformed .runningStatus := by decide
theorem test_decode_noStatus : decode (.midi []) = .malformed .noStatus := by decide
theorem test_decode_propClock (v : PropValue) : decode (.prop 0b00000001 0 v) = .instr (.propClock 0 v) := rfl
theorem test_decode_propMode (v : PropValue) : decode (.prop 0b00000010 0 v) = .instr (.propMode 0 v) := rfl
theorem test_decode_propNoisePeriod (v : PropValue) : decode (.prop 0b00000011 0 v) = .instr (.propNoisePeriod 0 v) := rfl
theorem test_decode_propEnvPeriod (v : PropValue) : decode (.prop 0b00000100 0 v) = .instr (.propEnvPeriod 0 v) := rfl
theorem test_decode_propEnvHold (v : PropValue) : decode (.prop 0b00000101 0 v) = .instr (.propEnvHold 0 v) := rfl
theorem test_decode_propEnvAlternate (v : PropValue) : decode (.prop 0b00000110 0 v) = .instr (.propEnvAlternate 0 v) := rfl
theorem test_decode_propEnvAttack (v : PropValue) : decode (.prop 0b00000111 0 v) = .instr (.propEnvAttack 0 v) := rfl
theorem test_decode_propEnvContinue (v : PropValue) : decode (.prop 0b00001000 0 v) = .instr (.propEnvContinue 0 v) := rfl
theorem test_decode_propTonePeriod (v : PropValue) : decode (.prop 0b00010000 1 v) = .instr (.propTonePeriod 1 v) := rfl
theorem test_decode_propLevel (v : PropValue) : decode (.prop 0b00010001 3 v) = .instr (.propLevel 3 v) := rfl
theorem test_decode_propEnvOn (v : PropValue) : decode (.prop 0b00010010 2 v) = .instr (.propEnvOn 2 v) := rfl
theorem test_decode_propToneOn (v : PropValue) : decode (.prop 0b00010011 0 v) = .instr (.propToneOn 0 v) := rfl
theorem test_decode_propNoiseOn (v : PropValue) : decode (.prop 0b00010100 0 v) = .instr (.propNoiseOn 0 v) := rfl
theorem test_decode_propUnknown (v : PropValue) : decode (.prop 0x7E 0 v) = .instr (.propUnknown 0x7E 0 v) := rfl

/-- The table's packing (R81): `W = (b0 << 16) | (b1 << 8) | b2`, absent bytes 0. -/
theorem test_decodeTableWord_programChange : decodeTableWord 24 0xC10500 = some (.programChange 1 5) := by decide
theorem test_decodeTableWord_systemReset : decodeTableWord 24 0xFF0000 = some .systemReset := by decide
theorem test_decodeTableWord_systemOther : decodeTableWord 24 0xF00000 = some (.systemOther 0 [0, 0]) := by decide
theorem test_decodeTableWord_absent_byte_set : decodeTableWord 24 0xC10501 = none := by decide
theorem test_decodeTableWord_propLevel : decodeTableWord 8 0x11 = some (.propLevel 0 (.int 0)) := by decide

/-! ### Binary64 arithmetic: the constants and exact values the rules write out -/

theorem test_clock_default : Binary64.ofInt 2000000 = ⟨0x413E848000000000#64⟩ := by decide +kernel
theorem test_bend_low : bendSemitones 0 0 = Binary64.ofInt (-12) := by decide +kernel
theorem test_bend_centre : bendSemitones 0 64 = Binary64.zero false := by decide +kernel
theorem test_bend_high : bendSemitones 0x7F 0x7F = Binary64.ofDecimal 1199853515625 100000000000 := by decide +kernel
theorem test_depth_64 : wheelDepth 64 = Binary64.ofDecimal 25196850393700787 100000000000000000 := by decide +kernel
theorem test_pan_126 : panPosition 126 = Binary64.ofDecimal 9920634920634921 10000000000000000 := by decide +kernel

/-! ### The reference functions: the tables of R201, R203 and R169 -/

/-- Parameters with the reference functions, and the two policies of the vectors' conventions. -/
def refParams : Params := ⟨.retrigger, .asNoteOn, .reference⟩

theorem test_lfo_512 : lfo refParams 512 = Binary64.ofDecimal 3826834323650898 10000000000000000 := by decide +kernel
theorem test_lfo_4096 : lfo refParams 4096 = Binary64.ofDecimal 12246467991473532 (10 ^ 32) := by decide +kernel
theorem test_lfo_wrapped : lfo refParams 0xFFFFFFFF = (Binary64.ofDecimal 766990318742586 (10 ^ 18)).neg := by decide +kernel

/-- The period of a note at 2 MHz, with a bend, a depth and a counter. -/
def periodAt (note : Int) (bend depth : Binary64) (ctr : BitVec 32) : Nat :=
  { Channel.powerOn with note := note, bend := bend, depth := depth }.period refParams (Binary64.ofInt 2000000) ctr

theorem test_period_notes :
    [0, 21, 33, 45, 57, 60, 69, 81, 127].map (fun n => periodAt n (Binary64.zero false) (Binary64.zero false) 0) =
      [7644, 2273, 1136, 568, 284, 239, 142, 71, 5] := by decide +kernel
theorem test_period_extremes :
    [periodAt 0 (bendSemitones 0 0) half 6144, periodAt 127 (bendSemitones 0x7F 0x7F) half 2048] = [15737, 2] := by decide +kernel
theorem test_period_step : [53, 54, 55, 56].map (fun k => periodAt 45 (Binary64.zero false) half k) =
    [568, 568, 567, 567] := by decide +kernel
theorem test_envCorr_table :
    [0, 8192, 9629, 9630, 12288, 12800, 12927, 14336, 15360, 16128, 16256, 16383].map (envCorr refParams) =
      [0, 8192, 9629, 9631, 12358, 12959, 13122, 16197, 24937, 48850, 56414, 65589] := by decide +kernel
theorem test_level_table :
    [level 12 100, level 15 100, level 15 8, level 1 63, level 1 64, level 12 10, level 0 127] = [9, 12, 1, 0, 1, 1, 0] := by
  decide +kernel

/-! ### One event on a small state (95_test_vectors.md sections 2.2 to 2.7) -/

/-- The power-on state of the vectors' conventions: sample rate 44100, no DC removal, every answer `ok`. -/
def powerOn : State := State.constructed (Binary64.ofInt 44100) false refParams true [] [true, true] [] 0

/-- The next state of an answer, `powerOn` for the other two. -/
def nextOf : Result → State
  | .next t => t
  | _ => powerOn

/-- After `SYSRESET`, the trace emptied. -/
def quiet : State := { nextOf (exec .systemReset powerOn) with chipTrace := [] }

/-- `quiet` with a note on channel 0. -/
def playing (note : Int) : State := quiet.setChan 0 { quiet.chan 0 with note := note, vel := 100 }

/-- The commands an instruction sends from a state with an empty trace. -/
def sent (i : Instr) (s : State) : List ChipCmd := (nextOf (exec i { s with chipTrace := [] })).chipTrace

theorem test_noteOff_stale : sent (.noteOff 0 60 64) (playing 61) = [] := by decide +kernel
theorem test_noteOff : sent (.noteOff 0 45 0) (playing 45) = [.vol 0 0] ∧
    ((nextOf (exec (.noteOff 0 45 0) (playing 45))).chan 0).note = -1 := by decide +kernel
theorem test_noteOn : sent (.noteOn 0 45 127) quiet = [.vol 0 12, .shape 0, .tone 0 568] := by decide +kernel
theorem test_noteOn_reject :
    sent (.noteOn 0 62 100) { playing 60 with params := ⟨.rejectWhileSounding, .asNoteOn, .reference⟩ } = [] := by decide +kernel
theorem test_noteOnVel0_asNoteOn : sent (.noteOnVel0 0 60) (playing 60) = [.vol 0 0, .shape 0, .tone 0 239] := by decide +kernel
theorem test_noteOnVel0_asNoteOff :
    sent (.noteOnVel0 0 60) { playing 60 with params := ⟨.retrigger, .asNoteOff, .reference⟩ } = [.vol 0 0] := by decide +kernel
theorem test_programChange : sent (.programChange 1 5) quiet = [.vol 1 0, .mixer 1 false true, .envOn 1 true] := by decide +kernel
theorem test_programChange_3 : sent (.programChange 0 3) quiet = [.vol 0 0, .mixer 0 false false, .envOn 0 false] := by decide +kernel
theorem test_systemReset : sent .systemReset powerOn =
    [.vol 0 0, .mixer 0 true false, .envOn 0 false, .pan 0 half .equalPower,
     .vol 1 0, .mixer 1 true false, .envOn 1 false, .pan 1 half .equalPower,
     .vol 2 0, .mixer 2 true false, .envOn 2 false, .pan 2 half .equalPower,
     .noise 0, .envPer 0, .shape 0] := by decide +kernel
theorem test_systemReset_keeps_bend :
    ((nextOf (exec .systemReset (quiet.setChan 0 { quiet.chan 0 with bend := ⟨5#64⟩, vel := 9 }))).chan 0) =
      { Channel.powerOn with note := -1, volume := 12, toneEn := true, pan := half, bend := ⟨5#64⟩, vel := 9 } := by decide +kernel
theorem test_resetControllers : sent (.ccResetControllers 0 0) (playing 45) = [.tone 0 568, .vol 0 9] := by decide +kernel
theorem test_resetControllers_powerOn : sent (.ccResetControllers 0 0) powerOn = [.tone 0 7644, .vol 0 0] := by decide +kernel
theorem test_allSoundOff : sent (.ccAllSoundOff 0 0) (playing 50) = [.vol 0 0] := by decide +kernel
theorem test_allNotesOff_silent : sent (.ccAllNotesOff 2 0) (playing 50) = [] := by decide +kernel
theorem test_modWheel : sent (.ccModWheel 0 127) { playing 45 with sampleCtr := 2048 } = [.tone 0 552] := by decide +kernel
theorem test_modWheel_64 : sent (.ccModWheel 0 64) { playing 45 with sampleCtr := 6144 } = [.tone 0 577] := by decide +kernel
theorem test_pan : sent (.ccPan 1 64) quiet = [.pan 1 half .equalPower] := by decide +kernel
theorem test_pan_hard_left : sent (.ccPan 1 1) quiet = [.pan 1 ⟨0#64⟩ .equalPower] := by decide +kernel
theorem test_mainVolume : sent (.ccMainVolume 0 127) (playing 60) = [.vol 0 12] := by decide +kernel
theorem test_mainVolume_silent : ((nextOf (exec (.ccMainVolume 0 100) quiet)).chan 0).volume = 12 := by decide +kernel
theorem test_gp1 : sent (.ccGp1Noise 0 100) quiet = [.noise 25] := by decide +kernel
theorem test_gp1_channel_3 : exec (.ccGp1Noise 3 100) quiet = .next quiet := by rfl
theorem test_gp2 : sent (.ccGp2EnvCoarse 0 127) { quiet with envPeriod := 0x7F } = [.envPer 65589] := by decide +kernel
theorem test_gp2_clears_top : (nextOf (exec (.ccGp2EnvCoarse 0 0) { quiet with envPeriod := 40000 })).envPeriod = 64 := by decide +kernel
theorem test_gp3 : sent (.ccGp3EnvFine 0 1) { quiet with envPeriod := 40000 } = [.envPer 39937] := by decide +kernel
theorem test_gp4 : sent (.ccGp4EnvShape 0 0x5F) quiet = [.shape 13] := by decide +kernel
theorem test_pitchBend : sent (.pitchBend 0 0x2B 0x55) (playing 60) = [.tone 0 190] := by decide +kernel
theorem test_modTick :
    sent .modTick { (((playing 45).setChan 1 { quiet.chan 1 with note := 57, depth := half }).setChan 2
      { quiet.chan 2 with depth := half }).setChan 0 { (playing 45).chan 0 with depth := half } with sampleCtr := 2048 } =
      [.tone 0 552, .tone 1 276] := by decide +kernel
theorem test_propNoisePeriod : sent (.propNoisePeriod 0 (.int 1000)) quiet = [.noise 1000] := by decide +kernel
theorem test_propNoisePeriod_negative : sent (.propNoisePeriod 0 (.int 0xFFFFFFFF)) quiet = [] := by decide +kernel
theorem test_propEnvPeriod : sent (.propEnvPeriod 0 (.int 40000)) quiet = [.envPer 40000] := by decide +kernel
theorem test_propEnvPeriod_range : sent (.propEnvPeriod 0 (.int 65536)) quiet = [] := by decide +kernel
theorem test_propEnvHold : sent (.propEnvHold 0 (.bool true)) { quiet with envShape := 8 } = [.shape 9] := by decide +kernel
theorem test_propEnvAlternate : sent (.propEnvAlternate 0 (.bool true)) { quiet with envShape := 9 } = [.shape 11] := by decide +kernel
theorem test_propEnvAttack : sent (.propEnvAttack 0 (.bool false)) { quiet with envShape := 15 } = [.shape 11] := by decide +kernel
theorem test_propEnvContinue : sent (.propEnvContinue 0 (.bool false)) { quiet with envShape := 8 } = [.shape 0] := by decide +kernel
theorem test_propTonePeriod : sent (.propTonePeriod 1 (.int 300)) quiet = [.tone 1 300] := by decide +kernel
theorem test_propLevel : sent (.propLevel 0 (.int 40)) quiet = [.vol 0 40] := by decide +kernel
theorem test_propLevel_channel_3 : sent (.propLevel 3 (.int 5)) quiet = [] := by decide +kernel
theorem test_propEnvOn : sent (.propEnvOn 2 (.bool true)) quiet = [.envOn 2 true] := by decide +kernel
theorem test_propToneOn : sent (.propToneOn 0 (.bool false)) quiet = [.mixer 0 false false] := by decide +kernel
theorem test_propNoiseOn : sent (.propNoiseOn 0 (.bool true)) quiet = [.mixer 0 true true] := by decide +kernel
theorem test_propClock : sent (.propClock 0 (.real (Binary64.ofDecimal 17734 10000))) (playing 45) =
    [.cfg .ay (Binary64.ofInt 1773400) (Binary64.ofInt 44100) true, .tone 0 504] := by decide +kernel
theorem test_propClock_failed_cfg :
    (nextOf (exec (.propClock 0 (.real (Binary64.ofInt 1))) { quiet with cfgAnswers := [false] })).cfgInvalid = true := by
  decide +kernel
theorem test_propMode : sent (.propMode 0 (.bool true)) quiet =
    [.cfg .ym (Binary64.ofInt 2000000) (Binary64.ofInt 44100) true] := by decide +kernel
theorem test_construct_refused (s : State) :
    exec (.construct false (Binary64.ofInt 44100) false refParams) s = .refused .hostCapabilityMissing := rfl
theorem test_renderStep : (nextOf (exec .renderStep (quiet.openBlock 2 []))).outL.map Option.isSome = [true, false] := by
  decide +kernel
theorem test_renderStep_outside : exec .renderStep powerOn = .fault .outsideBuffer := by rfl

/-! ### Blocks (section 2.5, program P7) -/

/-- Chip answers for three frames. -/
def threeSamples : List (Binary32 × Binary32) := [(⟨1⟩, ⟨2⟩), (⟨3⟩, ⟨4⟩), (⟨5⟩, ⟨6⟩)]

/-- A block of three frames whose events decrease in offset: the late one is applied at the cursor (R241, I17). -/
theorem test_block_order :
    sent (.block 3 [⟨2, .prop 0x03 0 (.int 7)⟩, ⟨1, .prop 0x05 0 (.bool true)⟩]) { quiet with renderAnswers := threeSamples } =
      [.render false ⟨1⟩ ⟨2⟩, .render false ⟨3⟩ ⟨4⟩, .noise 7, .shape 1, .render false ⟨5⟩ ⟨6⟩] := by decide +kernel
theorem test_block_contract :
    exec (.block 4 [⟨0, .midi [0xFF]⟩, ⟨4, .prop 0x03 0 (.int 7)⟩]) powerOn =
      .next { powerOn with fault := true, faultIndex := 1 } := by rfl
theorem test_faulted_has_no_step : step { powerOn with fault := true, faultIndex := 1 } = .fault (.hostContract 1) := by rfl

/-- The fetch: a word placed by `withFetchWord` is run by the very next step. -/
theorem test_withFetchWord : (nextOf (step (quiet.withFetchWord 24 0xB01064))).noisePeriod = 25 := by decide +kernel

/-! ### The assembler (R95) -/

theorem test_asm_bend14 : (AsmLine.bend14 0 10923).payloads = [.midi [0xE0, 0x2B, 0x55]] := by decide
theorem test_asm_shapeCc : (AsmLine.shapeCc 0 13).payloads = [.midi [0xB0, 0x13, 0x50]] := by decide

/-! ### Witnesses: a concrete case that meets the hypotheses of each statement that has some -/

/-- A block of two frames in progress, its event (a note on) due now. -/
def noteDue : State := { quiet.openBlock 2 [⟨0, .midi [0x90, 0x2D, 0x7F]⟩] with renderAnswers := threeSamples }

/-- The same block with a malformed event. -/
def badDue : State := quiet.openBlock 2 [⟨0, .midi [0x90, 0x2D]⟩]

/-- Whether an answer is a next state. -/
def isNext : Result → Bool
  | .next _ => true
  | _ => false

theorem eq_nextOf {r : Result} (h : isNext r = true) : r = .next (nextOf r) := by
  cases r <;> first | rfl | cases h

theorem quiet_idle : quiet.isIdle = true ∧ quiet.fault = false ∧ quiet.calls = [] := by decide +kernel

theorem witness_DecodeOfEncode :
    (Instr.noteOn 15 127 1).wellFormed = true ∧ encode (.noteOn 15 127 1) = some (.midi [0x9F, 0x7F, 0x01]) := by decide
theorem witness_EncodeOfDecode : decode (.midi [0x9F, 0x7F, 0x01]) = .instr (.noteOn 15 127 1) := by decide
theorem witness_MalformedChannelMessages :
    (0xEF#8).toNat < 0xF0 ∧ decode (.midi [0xEF, 0x80, 0x00]) = .malformed .badDataByte ∧
    decode (.midi [0xEF, 0x7F, 0x7F]) = .instr (.pitchBend 15 127 127) := by decide
theorem witness_StepRunsDecodedEvent : ∃ e, noteDue.events[noteDue.evIdx]? = some e ∧ e.offset.toNat ≤ noteDue.cursor ∧
    decode e.payload = .instr (.noteOn 0 45 127) := ⟨_, rfl, by decide, by decide⟩
theorem witness_StepSkipsMalformedEvent : ∃ e, badDue.events[badDue.evIdx]? = some e ∧ e.offset.toNat ≤ badDue.cursor ∧
    decode e.payload = .malformed .wrongLength := ⟨_, rfl, by decide, by decide⟩
theorem witness_FetchWordRunsNext : decodeTableWord 24 0x902D7F = some (.noteOn 0 45 127) := by decide
theorem witness_IdleKeepsEverything : quiet.isIdle = true ∧ quiet.fault = false ∧ quiet.calls = [] := quiet_idle
theorem witness_ChannelGate : midiChannel (.ccGp1Noise 3 100) = some 3 ∧ 3 ≤ (3#4).toNat ∧
    midiChannel (.noteOn 15 60 1) = some 15 ∧ 3 ≤ (15#4).toNat := by decide
theorem witness_UnlistedInputIgnored :
    (0x09#8).toNat ∉ [0x01, 0x02, 0x03, 0x04, 0x05, 0x06, 0x07, 0x08, 0x10, 0x11, 0x12, 0x13, 0x14] ∧
    (0x00#8).toNat ∉ [0x01, 0x02, 0x03, 0x04, 0x05, 0x06, 0x07, 0x08, 0x10, 0x11, 0x12, 0x13, 0x14] := by decide
/-- A clock of -0.0; a number for a Boolean; -1 for a period; 65536 for the envelope; channel 3. -/
theorem witness_IllegalRecordsIgnored :
    (Binary64.mul ⟨0x8000000000000000#64⟩ (Binary64.ofInt 1000000)).isPositive = false ∧
    (∀ b, PropValue.int 1 ≠ .bool b) ∧ (0xFFFFFFFF#32).toInt < 0 ∧ 65535 < (65536#32).toInt ∧ 3 ≤ (3#8).toNat := by
  refine ⟨by decide +kernel, ?_, by decide, by decide, by decide⟩
  intro b h; cases h
theorem witness_EveryEventCompletes : (Instr.propNoiseOn 0 (.bool true)).isEvent = true := by rfl
theorem witness_VelocityZeroNoteOn : quiet.params.vel0Policy = .asNoteOn ∧
    { quiet with params := ⟨.retrigger, .asNoteOff, .reference⟩ }.params.vel0Policy = .asNoteOff := by decide +kernel
theorem witness_ShapeBitResults : (Instr.propEnvContinue, 3) ∈
    ([(Instr.propEnvHold, 0), (Instr.propEnvAlternate, 1), (Instr.propEnvAttack, 2), (Instr.propEnvContinue, 3)] :
      List ((Byte → PropValue → Instr) × Nat)) := by simp
theorem witness_ClockPropertyResult : (Binary64.mul (Binary64.ofInt 2) (Binary64.ofInt 1000000)).isPositive = true := by decide +kernel
theorem witness_RenderStepResult : noteDue.cursor < noteDue.frames.toNat := by decide +kernel
theorem witness_RenderStepNeedsFrame : quiet.frames.toNat ≤ quiet.cursor := by decide +kernel
/-- An offset of exactly `N` after one of `N - 1`; and the state that follows. -/
theorem witness_HostContractFault : quiet.fault = false ∧
    ([⟨3, .midi []⟩, ⟨4, .midi []⟩] : List Event)[1]? = some ⟨4, .midi []⟩ ∧ (4#32).toNat ≤ (4#32).toNat ∧
    (∀ (i : Nat) (d : Event), i < 1 → ([⟨3, .midi []⟩, ⟨4, .midi []⟩] : List Event)[i]? = some d → d.offset.toNat < (4#32).toNat) ∧
    { quiet with fault := true }.fault = true ∧ { quiet with fault := true }.isIdle = true := by
  refine ⟨by decide +kernel, rfl, by decide, ?_, rfl, by decide +kernel⟩
  intro i d hi hd
  obtain rfl : i = 0 := by omega
  injection hd with hd; subst hd; decide
theorem witness_BlockCompletes : quiet.fault = false ∧
    ∀ e ∈ ([⟨0, .midi []⟩, ⟨3, .midi [0xFF]⟩] : List Event), e.offset.toNat < (4#32).toNat := by decide +kernel
theorem witness_StepsCarryOutBlock : { quiet with calls := [.block 1 [⟨0, .midi [0xFF]⟩]] }.isIdle = true ∧
    { quiet with calls := [.block 1 [⟨0, .midi [0xFF]⟩]] }.fault = false ∧
    ∀ e ∈ ([⟨0, .midi [0xFF]⟩] : List Event), e.offset.toNat < (1#32).toNat := by decide +kernel
theorem witness_EmptyBlock : { quiet with calls := [.block 0 [], .block 3 []] }.fault = false ∧
    { quiet with calls := [.block 0 [], .block 3 []] }.isIdle = true := by decide +kernel
/-- Two states that differ in what the port does not show. -/
theorem witness_BlockSeesObservationOnly :
    quiet.observation = { quiet with evIdx := 7, cursor := 5 }.observation ∧ quiet ≠ { quiet with evIdx := 7, cursor := 5 } ∧
    ∃ t, exec (.block 1 [⟨0, .midi [0xFF]⟩]) quiet = .next t := by
  refine ⟨rfl, by decide +kernel, ?_⟩
  exact ⟨_, eq_nextOf (by decide +kernel)⟩

theorem noteDue_onTime : noteDue.OnTime where
  ordered := by simp [noteDue, State.openBlock, Ordered]
  ahead := by intro j e _ _; simp [noteDue, State.openBlock]
/-- The state after one step of an answer that is a next state. -/
theorem step_noteDue : step noteDue = .next (nextOf (step noteDue)) := eq_nextOf (by decide +kernel)
theorem witness_EventsOnTime : Ordered [⟨1, .midi []⟩, ⟨1, .midi []⟩, ⟨2, .midi []⟩] ∧ noteDue.OnTime ∧ noteDue.isIdle = false ∧
    step noteDue = .next (nextOf (step noteDue)) ∧ (nextOf (step noteDue)).evIdx = noteDue.evIdx + 1 :=
  ⟨by simp [Ordered], noteDue_onTime, by decide +kernel, step_noteDue, by decide +kernel⟩

theorem noteDue_registers : noteDue.RegistersInRange where
  note := by unfold Channel.noteInRange; decide +kernel
  reals := by unfold Channel.realsInRange; decide +kernel
  noise := by decide +kernel
  clock := by decide +kernel
  rate := by decide +kernel
  pending := by decide +kernel
/-- An idle state whose host is about to construct, with the smallest positive rate. -/
def rebuilding : State := { quiet with calls := [.construct true ⟨1#64⟩ false refParams] }
theorem rebuilding_registers : rebuilding.RegistersInRange where
  note := by unfold Channel.noteInRange; decide +kernel
  reals := by unfold Channel.realsInRange; decide +kernel
  noise := by decide +kernel
  clock := by decide +kernel
  rate := by decide +kernel
  pending := by decide +kernel
theorem witness_StepKeepsRegisterRanges :
    (noteDue.RegistersInRange ∧ step noteDue = .next (nextOf (step noteDue))) ∧
    (rebuilding.RegistersInRange ∧ step rebuilding = .next (nextOf (step rebuilding))) :=
  ⟨⟨noteDue_registers, step_noteDue⟩, rebuilding_registers, eq_nextOf (by decide +kernel)⟩
theorem noteDue_shape : noteDue.BlockShape where
  cursor_le := by decide +kernel
  evIdx_le := by decide +kernel
  offsets := by decide +kernel
  lenL := by decide +kernel
  lenR := by decide +kernel
  writtenL := by
    intro i _; simp only [noteDue, State.openBlock]
    constructor
    · rintro ⟨x, hx⟩; rcases i with _ | _ | i <;> simp at hx
    · intro h; omega
  writtenR := by
    intro i _; simp only [noteDue, State.openBlock]
    constructor
    · rintro ⟨x, hx⟩; rcases i with _ | _ | i <;> simp at hx
    · intro h; omega
theorem witness_StepKeepsBlockShape : noteDue.BlockShape ∧ step noteDue = .next (nextOf (step noteDue)) :=
  ⟨noteDue_shape, step_noteDue⟩

theorem exec_noteOn_quiet : exec (.noteOn 0 45 127) quiet = .next (nextOf (exec (.noteOn 0 45 127) quiet)) :=
  eq_nextOf (by decide +kernel)
theorem witness_EventsLeaveAlone : (Instr.noteOn 0 45 127).isEvent = true ∧
    exec (.noteOn 0 45 127) quiet = .next (nextOf (exec (.noteOn 0 45 127) quiet)) := ⟨rfl, exec_noteOn_quiet⟩
/-- Each register of the statement does change under an event it names. -/
theorem witness_SoleWriters : (Instr.noteOn 0 45 127).isEvent = true ∧
    exec (.noteOn 0 45 127) quiet = .next (nextOf (exec (.noteOn 0 45 127) quiet)) ∧
    ((nextOf (exec (.noteOn 0 45 127) quiet)).chan 0).vel ≠ (quiet.chan 0).vel ∧
    ((nextOf (exec (.ccMainVolume 0 8) quiet)).chan 0).volume ≠ (quiet.chan 0).volume ∧
    ((nextOf (exec (.pitchBend 0 0 0) quiet)).chan 0).bend ≠ (quiet.chan 0).bend ∧
    ((nextOf (exec (.ccModWheel 0 1) quiet)).chan 0).depth ≠ (quiet.chan 0).depth ∧
    ((nextOf (exec (.ccPan 0 0) quiet)).chan 0).pan ≠ (quiet.chan 0).pan ∧
    (nextOf (exec (.propClock 0 (.real (Binary64.ofInt 1))) quiet)).clockHz ≠ quiet.clockHz ∧
    (nextOf (exec (.propMode 0 (.bool true)) quiet)).mode ≠ quiet.mode ∧
    (nextOf (exec (.propMode 0 (.bool true)) { quiet with cfgAnswers := [false] })).cfgInvalid ≠ quiet.cfgInvalid := by
  refine ⟨rfl, exec_noteOn_quiet, ?_⟩
  decide +kernel
theorem witness_TraceOnlyGrows : (∀ cap rate dc p, Instr.noteOn 0 45 127 ≠ .construct cap rate dc p) ∧
    exec (.noteOn 0 45 127) quiet = .next (nextOf (exec (.noteOn 0 45 127) quiet)) :=
  ⟨(by intros; nofun), exec_noteOn_quiet⟩
theorem witness_TonesOnlyWhileSounding :
    exec (.noteOn 0 45 127) quiet = .next (nextOf (exec (.noteOn 0 45 127) quiet)) ∧
    (nextOf (exec (.noteOn 0 45 127) quiet)).chipTrace = quiet.chipTrace ++ [.vol 0 12, .shape 0, .tone 0 568] ∧
    .tone 0 568 ∈ [ChipCmd.vol 0 12, .shape 0, .tone 0 568] :=
  ⟨exec_noteOn_quiet, by decide +kernel, by decide⟩
theorem witness_EnvelopeRestarts : (Instr.noteOn 0 45 127).isEvent = true ∧
    exec (.noteOn 0 45 127) quiet = .next (nextOf (exec (.noteOn 0 45 127) quiet)) ∧
    (nextOf (exec (.noteOn 0 45 127) quiet)).chipTrace = quiet.chipTrace ++ [.vol 0 12, .shape 0, .tone 0 568] ∧
    .shape 0 ∈ [ChipCmd.vol 0 12, .shape 0, .tone 0 568] :=
  ⟨rfl, exec_noteOn_quiet, by decide +kernel, by decide⟩
theorem witness_PeriodRepeats :
    phase 0xFFFFE800 = 2048 ∧ phase 0xFFFFF800 = 6144 ∧ (Binary64.ofInt 2000000).isPositive = true ∧
      semitone refParams { Channel.powerOn with note := 45 } 2048 = Binary64.ofInt 45 ∧
      Channel.powerOn.depth.isZero = true := by decide +kernel

theorem witness_PseudoInstructions : (AsmLine.shapeCc (chanNo 2) 8).legal = true ∧ (AsmLine.shapeCc (chanNo 0) 15).legal = true := by
  decide

end Sys2Proof.Tests
end

/-! # Register ranges are kept by every step

The range predicate reads only the channels, `NOISE_PERIOD`, `CLOCK_HZ`, `SAMPLE_RATE` and the pending calls. So each
operation that writes none of these keeps it (`RegistersInRange.congr`), and what is left to prove is the range of each
value that an event or a construction writes there. -/

namespace Sys2Proof.Machine

/-! ### The ranges of the values that events write -/

/-- The modulation wheel's depth lies between 0 and 0.5 semitones (R164, R39). -/
theorem wheelDepth_range (v : BitVec 7) :
    Binary64.le (Binary64.zero false) (wheelDepth v) = true ∧
    Binary64.le (wheelDepth v) (Binary64.ofDecimal 1 2) = true := by
  revert v; decide +kernel

/-- A controller's pan lies between 0 and 1 (R165, R41). -/
theorem panPosition_range (v : BitVec 7) :
    Binary64.le (Binary64.zero false) (panPosition v) = true ∧
    Binary64.le (panPosition v) (Binary64.ofInt 1) = true := by
  revert v; decide +kernel

/-- A clock property stores a clock that is finite and positive, or nothing (R281, R21). -/
theorem isPositive_of_clockValue {value : PropValue} {hz : Binary64} (h : clockValue value = some hz) :
    hz.isPositive = true := by
  unfold clockValue at h
  cases hx : realValue value with
  | none => simp [hx] at h
  | some x =>
    simp only [hx, Option.ite_none_right_eq_some, Option.some.injEq] at h
    obtain ⟨hpos, rfl⟩ := h
    exact hpos

theorem Channel.noteInRange_of_silent {x : Channel} (h : x.note = -1) : x.noteInRange := by
  simp [Channel.noteInRange, h]

/-- The note of a note-on is a 7-bit number (R84, R34). -/
theorem Channel.noteInRange_of_toNat {x : Channel} {n : BitVec 7} (h : x.note = n.toNat) : x.noteInRange := by
  have hn : n.toNat < 128 := n.isLt
  unfold Channel.noteInRange
  omega

theorem Channel.powerOn_noteInRange : Channel.powerOn.noteInRange := by
  unfold Channel.noteInRange; decide

theorem Channel.powerOn_realsInRange : Channel.powerOn.realsInRange := by
  unfold Channel.realsInRange; decide +kernel

/-- System Reset writes a depth of 0 and a pan of 0.5, and keeps the bend (R129). -/
theorem Channel.systemReset_realsInRange {x : Channel} (h : x.realsInRange) : x.systemReset.realsInRange := by
  obtain ⟨-, hbend, -⟩ := h
  have hzero : Binary64.le (Binary64.zero false) (Binary64.zero false) = true := by decide +kernel
  have hzeroHalf : Binary64.le (Binary64.zero false) half = true := by decide +kernel
  have hhalfOne : Binary64.le half (Binary64.ofInt 1) = true := by decide +kernel
  exact ⟨⟨hzero, hzeroHalf⟩, hbend, hzeroHalf, hhalfOne⟩

/-! ### What each state operation does to the ranges -/

namespace State.RegistersInRange

variable {s : State}

/-- The ranges depend on five fields only. -/
theorem congr {t : State} (h : s.RegistersInRange) (ch : t.ch = s.ch := by rfl)
    (noise : t.noisePeriod = s.noisePeriod := by rfl) (clock : t.clockHz = s.clockHz := by rfl)
    (rate : t.sampleRate = s.sampleRate := by rfl) (calls : t.calls = s.calls := by rfl) : t.RegistersInRange where
  note c := State.chan_congr ch c ▸ h.note c
  reals c := State.chan_congr ch c ▸ h.reals c
  noise := noise ▸ h.noise
  clock := clock ▸ h.clock
  rate := rate ▸ h.rate
  pending := calls ▸ h.pending

theorem emit {cmd : ChipCmd} (h : s.RegistersInRange) : (s.emit cmd).RegistersInRange := h.congr

theorem setChan {c : Fin 3} {x : Channel} (h : s.RegistersInRange) (hn : x.noteInRange) (hr : x.realsInRange) :
    (s.setChan c x).RegistersInRange where
  note d := by rw [State.chan_setChan]; split; exacts [hn, h.note d]
  reals d := by rw [State.chan_setChan]; split; exacts [hr, h.reals d]
  noise := h.noise
  clock := h.clock
  rate := h.rate
  pending := h.pending

/-- A channel write that leaves the note alone. -/
theorem setChan_reals {c : Fin 3} {x : Channel} (h : s.RegistersInRange) (hn : x.note = (s.chan c).note)
    (hr : x.realsInRange) : (s.setChan c x).RegistersInRange :=
  h.setChan (by unfold Channel.noteInRange; rw [hn]; exact h.note c) hr

theorem setNoisePeriod {p : Nat} (h : s.RegistersInRange) (hp : p < 2 ^ 31) :
    { s with noisePeriod := p }.RegistersInRange :=
  { h with noise := hp }

theorem setClock {hz : Binary64} (h : s.RegistersInRange) (hp : hz.isPositive = true) :
    { s with clockHz := hz }.RegistersInRange :=
  { h with clock := hp }

theorem dropCall {call : HostCall} {rest : List HostCall} (h : s.RegistersInRange) (hc : s.calls = call :: rest) :
    { s with calls := rest }.RegistersInRange :=
  { h with pending := fun c hmem => h.pending c (by rw [hc]; exact List.mem_cons_of_mem call hmem) }

theorem pushTone {c : Fin 3} (h : s.RegistersInRange) : (s.pushTone c).RegistersInRange := h.emit

theorem toneUpdate {c : Fin 3} (h : s.RegistersInRange) : (s.toneUpdate c).RegistersInRange := by
  rw [State.toneUpdate_eq]; exact h.congr

theorem pushLevel {c : Fin 3} (h : s.RegistersInRange) : (s.pushLevel c).RegistersInRange := by
  rw [State.pushLevel_eq]; exact h.congr

theorem reconfigure (h : s.RegistersInRange) : s.reconfigure.RegistersInRange := by
  unfold State.reconfigure
  rw [State.retune_eq]; exact h.congr

theorem renderFrame (h : s.RegistersInRange) : s.renderFrame.RegistersInRange := by
  rw [State.renderFrame_eq]; exact h.congr

theorem silence {c : Fin 3} (h : s.RegistersInRange) : (s.silence c).RegistersInRange := by
  unfold State.silence
  split
  · exact h.emit.setChan (Channel.noteInRange_of_silent rfl) (h.reals c)
  · exact h

theorem noteOff {c : Fin 3} {n : BitVec 7} (h : s.RegistersInRange) : (s.noteOff c n).RegistersInRange := by
  unfold State.noteOff
  split
  · exact h.emit.setChan (Channel.noteInRange_of_silent rfl) (h.reals c)
  · exact h

theorem startNote {c : Fin 3} {n v : BitVec 7} (h : s.RegistersInRange) : (s.startNote c n v).RegistersInRange :=
  .pushTone (.emit (.emit (h.setChan (Channel.noteInRange_of_toNat rfl) (h.reals c))))

theorem noteOn {c : Fin 3} {n v : BitVec 7} (h : s.RegistersInRange) : (s.noteOn c n v).RegistersInRange := by
  unfold State.noteOn
  split
  · exact h.startNote
  · split
    · exact h
    · exact h.startNote

theorem programChange {c : Fin 3} {p : BitVec 7} (h : s.RegistersInRange) : (s.programChange c p).RegistersInRange :=
  .emit (.emit (.emit (h.setChan (Channel.noteInRange_of_silent rfl) (h.reals c))))

theorem resetRegisters (h : s.RegistersInRange) : s.resetRegisters.RegistersInRange where
  note c := by rw [State.chan_resetRegisters]; exact Channel.noteInRange_of_silent rfl
  reals c := by rw [State.chan_resetRegisters]; exact Channel.systemReset_realsInRange (h.reals c)
  noise := by simp
  clock := h.clock
  rate := h.rate
  pending := h.pending

theorem pushChannelReset {c : Fin 3} (h : s.RegistersInRange) : (s.pushChannelReset c).RegistersInRange :=
  h.emit.emit.emit.emit

/-- A construction with a legal rate starts in range, whatever the state was before (R46, R330). -/
theorem constructed {rate : Binary64} {calls : List HostCall} (hrate : rate.isPositive = true)
    (hcalls : ∀ call ∈ calls, legalRate call = true) (dc : Bool) (params : Params) (ok : Bool) (cfgAnswers : List Bool)
    (renderAnswers : List (Binary32 × Binary32)) (draws : Nat) :
    (State.constructed rate dc params ok calls cfgAnswers renderAnswers draws).RegistersInRange where
  note c := by
    fin_cases c <;> exact Channel.powerOn_noteInRange
  reals c := by
    fin_cases c <;> exact Channel.powerOn_realsInRange
  noise := by simp [State.constructed]
  clock := Binary64.isPositive_ofFields (f := 0x413E848000000000) (by norm_num) (by norm_num)
  rate := hrate
  pending := hcalls

end State.RegistersInRange

/-! ### Answers in range -/

/-- If the meaning answers a next state, that state's registers are in range; a fault or a refusal answers none. -/
def EndsInRange (r : Result) : Prop := ∀ t, r = .next t → t.RegistersInRange

theorem endsInRange_next {s : State} (h : s.RegistersInRange) : EndsInRange (.next s) := by
  rintro t ⟨⟩
  exact h

theorem endsInRange_fault (why : Fault) : EndsInRange (.fault why) := nofun

theorem endsInRange_refused (why : Refusal) : EndsInRange (.refused why) := nofun

section
variable {s : State} (h : s.RegistersInRange)
include h

theorem onChannel_endsInRange {c : BitVec 4} {f : Fin 3 → State} (hf : ∀ k, (f k).RegistersInRange) :
    EndsInRange (onChannel c s f) := by
  intro t ht
  obtain ⟨k, -, rfl⟩ | ⟨-, rfl⟩ := onChannel_eq_next ht
  · exact hf k
  · exact h

theorem onValue_endsInRange {α : Type} {o : Option α} {f : α → State} (hf : ∀ a, o = some a → (f a).RegistersInRange) :
    EndsInRange (onValue o s f) := by
  intro t ht
  obtain ⟨a, ha, rfl⟩ | ⟨-, rfl⟩ := onValue_eq_next ht
  · exact hf a ha
  · exact h

theorem onChannelValue_endsInRange {α : Type} {o : Option α} {chan : Byte} {f : Fin 3 → α → State}
    (hf : ∀ c a, (f c a).RegistersInRange) : EndsInRange (onChannelValue o chan s f) := by
  intro t ht
  obtain ⟨a, c, -, -, rfl⟩ | ⟨-, rfl⟩ := onChannelValue_eq_next ht
  · exact hf c a
  · exact h

/-! ### The events that write a register with a range -/

theorem execNoteOnVel0_endsInRange (c : BitVec 4) (n : BitVec 7) : EndsInRange (execNoteOnVel0 c n s) := by
  refine onChannel_endsInRange h fun k => ?_
  split
  · exact h.noteOn
  · exact h.noteOff

theorem execCcModWheel_endsInRange (c : BitVec 4) (v : BitVec 7) : EndsInRange (execCcModWheel c v s) := by
  refine onChannel_endsInRange h fun k => ?_
  obtain ⟨-, hbend, hpan⟩ := h.reals k
  exact .toneUpdate (h.setChan_reals rfl ⟨wheelDepth_range v, hbend, hpan⟩)

theorem execCcPan_endsInRange (c : BitVec 4) (v : BitVec 7) : EndsInRange (execCcPan c v s) := by
  refine onChannel_endsInRange h fun k => ?_
  obtain ⟨hdepth, hbend, -⟩ := h.reals k
  exact .emit (h.setChan_reals rfl ⟨hdepth, hbend, panPosition_range v⟩)

theorem execPitchBend_endsInRange (c : BitVec 4) (lsb msb : BitVec 7) : EndsInRange (execPitchBend c lsb msb s) := by
  refine onChannel_endsInRange h fun k => ?_
  obtain ⟨hdepth, -, hpan⟩ := h.reals k
  exact .toneUpdate (h.setChan_reals rfl ⟨hdepth, bendSemitones_range lsb msb, hpan⟩)

theorem execCcGp1Noise_endsInRange (c : BitVec 4) (v : BitVec 7) : EndsInRange (execCcGp1Noise c v s) := by
  refine onChannel_endsInRange h fun _ => (h.setNoisePeriod ?_).emit
  have := (v >>> 2).isLt
  omega

theorem execPropNoisePeriod_endsInRange (chan : Byte) (value : PropValue) :
    EndsInRange (execPropNoisePeriod chan value s) := by
  refine onValue_endsInRange h fun p hp => (h.setNoisePeriod ?_).emit
  obtain ⟨hle, -⟩ := natUpTo_eq_some hp
  unfold maxInt32 at hle
  omega

theorem execSystemReset_endsInRange : EndsInRange (execSystemReset s) :=
  endsInRange_next h.resetRegisters.pushChannelReset.pushChannelReset.pushChannelReset.emit.emit.emit

/-! ### The other meanings -/

theorem execCcResetControllers_endsInRange (c : BitVec 4) (v : BitVec 7) :
    EndsInRange (execCcResetControllers c v s) := by
  refine onChannel_endsInRange h fun k => ?_
  split
  · exact h.pushTone.pushLevel
  · exact h

theorem writeShapeBit_endsInRange (i : Nat) (value : PropValue) : EndsInRange (writeShapeBit i value s) :=
  onValue_endsInRange h fun _ _ => h.congr

theorem execRenderStep_endsInRange : EndsInRange (execRenderStep s) := by
  unfold execRenderStep
  split
  · exact endsInRange_next h.renderFrame
  · exact endsInRange_fault _

theorem execConstruct_endsInRange (cap : Bool) {rate : Binary64} (hrate : rate.isPositive = true) (dc : Bool)
    (params : Params) : EndsInRange (execConstruct cap rate dc params s) := by
  unfold execConstruct
  split
  · exact endsInRange_next (.constructed hrate h.pending ..)
  · exact endsInRange_refused _

/-- Every event keeps the ranges. -/
theorem exec_endsInRange {i : Instr} (hi : i.isEvent = true) : EndsInRange (exec i s) := by
  cases i with
  | noteOff c n v => exact onChannel_endsInRange h fun _ => h.noteOff
  | noteOnVel0 c n => exact execNoteOnVel0_endsInRange h c n
  | noteOn c n v => exact onChannel_endsInRange h fun _ => h.noteOn
  | programChange c p => exact onChannel_endsInRange h fun _ => h.programChange
  | ccModWheel c v => exact execCcModWheel_endsInRange h c v
  | ccMainVolume c v =>
    exact onChannel_endsInRange h fun k => .pushLevel (h.setChan_reals rfl (h.reals k))
  | ccPan c v => exact execCcPan_endsInRange h c v
  | ccGp1Noise c v => exact execCcGp1Noise_endsInRange h c v
  | ccGp2EnvCoarse c v => exact onChannel_endsInRange h fun _ => h.congr
  | ccGp3EnvFine c v => exact onChannel_endsInRange h fun _ => h.congr
  | ccGp4EnvShape c v => exact onChannel_endsInRange h fun _ => h.congr
  | ccAllSoundOff c v => exact onChannel_endsInRange h fun _ => h.silence
  | ccResetControllers c v => exact execCcResetControllers_endsInRange h c v
  | ccAllNotesOff c v => exact onChannel_endsInRange h fun _ => h.silence
  | pitchBend c lsb msb => exact execPitchBend_endsInRange h c lsb msb
  | systemReset => exact execSystemReset_endsInRange h
  | propClock chan value =>
    exact onValue_endsInRange h fun hz hv => (h.setClock (isPositive_of_clockValue hv)).reconfigure
  | propMode chan value =>
    exact onValue_endsInRange h fun b _ => .reconfigure h.congr
  | propNoisePeriod chan value => exact execPropNoisePeriod_endsInRange h chan value
  | propEnvPeriod chan value => exact onValue_endsInRange h fun _ _ => h.congr
  | propEnvHold chan value => exact writeShapeBit_endsInRange h 0 value
  | propEnvAlternate chan value => exact writeShapeBit_endsInRange h 1 value
  | propEnvAttack chan value => exact writeShapeBit_endsInRange h 2 value
  | propEnvContinue chan value => exact writeShapeBit_endsInRange h 3 value
  | propTonePeriod chan value => exact onChannelValue_endsInRange h fun _ _ => h.emit
  | propLevel chan value => exact onChannelValue_endsInRange h fun _ _ => h.emit
  | propEnvOn chan value =>
    exact onChannelValue_endsInRange h fun c _ => .emit (h.setChan_reals rfl (h.reals c))
  | propToneOn chan value =>
    exact onChannelValue_endsInRange h fun c _ => .emit (h.setChan_reals rfl (h.reals c))
  | propNoiseOn chan value =>
    exact onChannelValue_endsInRange h fun c _ => .emit (h.setChan_reals rfl (h.reals c))
  | polyAftertouch | ccOther | channelPressure | systemOther | propUnknown => exact endsInRange_next h
  | block | renderStep | modTick | construct => simp [Instr.isEvent] at hi

/-! ### The step -/

theorem stepEvent_endsInRange (e : Event) : EndsInRange (stepEvent e s) := by
  unfold stepEvent
  cases hd : decode e.payload with
  | malformed why => exact endsInRange_next h.congr
  | instr i =>
    intro t ht
    obtain ⟨u, hu, hnext⟩ := andThen_eq_next.1 ht
    exact endsInRange_next (exec_endsInRange h (decode_isEvent hd) u hu).congr t hnext

theorem startCall_endsInRange {call : HostCall} (hcall : legalRate call = true) : EndsInRange (startCall call s) := by
  cases call with
  | construct cap rate dc params => exact execConstruct_endsInRange h cap hcall dc params
  | block n events =>
    simp only [startCall]
    split
    · exact endsInRange_next h.congr
    · split
      · exact endsInRange_next h
      · exact endsInRange_next h.congr

/-- The idle step starts a construction only if the host had it pending, so with a legal rate (D37). -/
theorem stepIdle_endsInRange : EndsInRange (stepIdle s) := by
  unfold stepIdle
  split
  · exact endsInRange_fault _
  · cases hc : s.calls with
    | nil => exact endsInRange_next h
    | cons call rest =>
      exact startCall_endsInRange (h.dropCall hc) (h.pending call (by rw [hc]; exact List.mem_cons_self))

theorem step_endsInRange : EndsInRange (step s) := by
  cases he : s.events[s.evIdx]? with
  | some e =>
    by_cases hc : s.cursor < e.offset.toNat
    · rw [step_render he hc]; exact execRenderStep_endsInRange h
    · rw [step_event he (by omega)]; exact stepEvent_endsInRange h e
  | none =>
    by_cases hc : s.cursor < s.frames.toNat
    · rw [step_tail he hc]; exact execRenderStep_endsInRange h
    · have hlen : s.events.length ≤ s.evIdx := List.getElem?_eq_none_iff.1 he
      have hidle : s.isIdle = true := by simp [State.isIdle, hlen, Nat.le_of_not_lt hc]
      rw [step_idle hidle]; exact stepIdle_endsInRange h

end

/-- Settles O52: each branch of `step` (a render step, an event, the start of a host call) keeps the ranges. -/
theorem stepKeepsRegisterRanges : Obligations.StepKeepsRegisterRanges := by
  intro s t h ht
  exact step_endsInRange h t ht

end Sys2Proof.Machine

/-! # What no event writes, and the shape of a block

`State.eventFrame` gathers the fields that no event writes. It is a value, so that "leaves alone" is one equation, closed
by `rfl` for every unconditional operation; the block's registers are among its fields, which is why an event keeps the
shape of the block. -/

namespace Sys2Proof.Machine

/-! ### A property of every next state -/

/-- `P` holds of the next state that a meaning answers, if it answers one. -/
def Ends (P : State → Prop) (r : Result) : Prop := ∀ t, r = .next t → P t

theorem ends_next {P : State → Prop} {s : State} (h : P s) : Ends P (.next s) := by
  rintro t ⟨⟩
  exact h

theorem ends_fault (P : State → Prop) (why : Fault) : Ends P (.fault why) := nofun

theorem ends_refused (P : State → Prop) (why : Refusal) : Ends P (.refused why) := nofun

theorem Ends.mono {P Q : State → Prop} {r : Result} (h : Ends P r) (hPQ : ∀ t, P t → Q t) : Ends Q r :=
  fun t ht => hPQ t (h t ht)

theorem Ends.andThen {P Q : State → Prop} {r : Result} {f : State → Result} (h : Ends P r)
    (hf : ∀ t, P t → Ends Q (f t)) : Ends Q (andThen r f) := by
  intro u hu
  obtain ⟨t, ht, hfu⟩ := andThen_eq_next.1 hu
  exact hf t (h t ht) u hfu

section
variable {P : State → Prop} {s : State} (hs : P s)
include hs

theorem ends_onChannel {c : BitVec 4} {f : Fin 3 → State} (hf : ∀ k, P (f k)) : Ends P (onChannel c s f) := by
  intro t ht
  obtain ⟨k, -, rfl⟩ | ⟨-, rfl⟩ := onChannel_eq_next ht
  · exact hf k
  · exact hs

theorem ends_onValue {α : Type} {o : Option α} {f : α → State} (hf : ∀ a, P (f a)) : Ends P (onValue o s f) := by
  intro t ht
  obtain ⟨a, -, rfl⟩ | ⟨-, rfl⟩ := onValue_eq_next ht
  · exact hf a
  · exact hs

theorem ends_onChannelValue {α : Type} {o : Option α} {chan : Byte} {f : Fin 3 → α → State} (hf : ∀ c a, P (f c a)) :
    Ends P (onChannelValue o chan s f) := by
  intro t ht
  obtain ⟨a, c, -, -, rfl⟩ | ⟨-, rfl⟩ := onChannelValue_eq_next ht
  · exact hf c a
  · exact hs

end

/-! ### The fields no event writes -/

/-- The part of the state that belongs to the block transaction, the host and the construction, and to no event. -/
structure EventFrame where
  sampleCtr : BitVec 32
  sampleRate : Binary64
  removeDc : Bool
  fault : Bool
  frames : BitVec 32
  cursor : Nat
  evIdx : Nat
  outL : List (Option Binary32)
  outR : List (Option Binary32)
  events : List Event
  calls : List HostCall
  params : Params
  renderAnswers : List (Binary32 × Binary32)
  faultIndex : Nat

/-- The event frame of `s`. -/
def State.eventFrame (s : State) : EventFrame where
  sampleCtr := s.sampleCtr
  sampleRate := s.sampleRate
  removeDc := s.removeDc
  fault := s.fault
  frames := s.frames
  cursor := s.cursor
  evIdx := s.evIdx
  outL := s.outL
  outR := s.outR
  events := s.events
  calls := s.calls
  params := s.params
  renderAnswers := s.renderAnswers
  faultIndex := s.faultIndex

section
variable (s : State) (c : Fin 3)

@[simp] theorem State.eventFrame_emit (cmd : ChipCmd) : (s.emit cmd).eventFrame = s.eventFrame := rfl

@[simp] theorem State.eventFrame_setChan (x : Channel) : (s.setChan c x).eventFrame = s.eventFrame := rfl

@[simp] theorem State.eventFrame_pushTone : (s.pushTone c).eventFrame = s.eventFrame := rfl

@[simp] theorem State.eventFrame_toneUpdate : (s.toneUpdate c).eventFrame = s.eventFrame := by
  rw [State.toneUpdate_eq]; rfl

@[simp] theorem State.eventFrame_pushLevel : (s.pushLevel c).eventFrame = s.eventFrame := by
  rw [State.pushLevel_eq]; rfl

@[simp] theorem State.eventFrame_reconfigure : s.reconfigure.eventFrame = s.eventFrame := by
  unfold State.reconfigure
  rw [State.retune_eq]; rfl

@[simp] theorem State.eventFrame_noteOff (n : BitVec 7) : (s.noteOff c n).eventFrame = s.eventFrame := by
  unfold State.noteOff
  split <;> rfl

@[simp] theorem State.eventFrame_noteOn (n v : BitVec 7) : (s.noteOn c n v).eventFrame = s.eventFrame := by
  unfold State.noteOn
  split
  · rfl
  · split <;> rfl

@[simp] theorem State.eventFrame_silence : (s.silence c).eventFrame = s.eventFrame := by
  unfold State.silence
  split <;> rfl

@[simp] theorem State.eventFrame_resetRegisters : s.resetRegisters.eventFrame = s.eventFrame := rfl

@[simp] theorem State.eventFrame_pushChannelReset : (s.pushChannelReset c).eventFrame = s.eventFrame := by
  unfold State.pushChannelReset
  simp

end

/-- `t` has the event frame of `s`. -/
def State.KeepsEventFrame (s t : State) : Prop := t.eventFrame = s.eventFrame

theorem State.KeepsEventFrame.refl (s : State) : s.KeepsEventFrame s := rfl

theorem execSystemReset_keepsEventFrame (s : State) : Ends s.KeepsEventFrame (execSystemReset s) := by
  unfold execSystemReset
  exact ends_next (by simp [State.KeepsEventFrame])

theorem execNoteOnVel0_keepsEventFrame (c : BitVec 4) (n : BitVec 7) (s : State) :
    Ends s.KeepsEventFrame (execNoteOnVel0 c n s) := by
  refine ends_onChannel (.refl s) fun k => ?_
  split
  · exact s.eventFrame_noteOn k n 0
  · exact s.eventFrame_noteOff k n

theorem execCcResetControllers_keepsEventFrame (c : BitVec 4) (v : BitVec 7) (s : State) :
    Ends s.KeepsEventFrame (execCcResetControllers c v s) := by
  refine ends_onChannel (.refl s) fun k => ?_
  split
  · simp [State.KeepsEventFrame]
  · exact .refl s

/-- No event writes the event frame. -/
theorem exec_keepsEventFrame {i : Instr} (hi : i.isEvent = true) (s : State) :
    Ends s.KeepsEventFrame (exec i s) := by
  cases i with
  | noteOff c n v => exact ends_onChannel (.refl s) fun k => s.eventFrame_noteOff k n
  | noteOnVel0 c n => exact execNoteOnVel0_keepsEventFrame c n s
  | noteOn c n v => exact ends_onChannel (.refl s) fun k => s.eventFrame_noteOn k n v
  | ccModWheel | pitchBend => exact ends_onChannel (.refl s) fun k => State.eventFrame_toneUpdate _ k
  | ccMainVolume => exact ends_onChannel (.refl s) fun k => State.eventFrame_pushLevel _ k
  | ccAllSoundOff | ccAllNotesOff => exact ends_onChannel (.refl s) fun k => s.eventFrame_silence k
  | ccResetControllers c v => exact execCcResetControllers_keepsEventFrame c v s
  | ccPan | ccGp1Noise | ccGp2EnvCoarse | ccGp3EnvFine | ccGp4EnvShape | programChange =>
    exact ends_onChannel (.refl s) fun _ => rfl
  | propClock | propMode => exact ends_onValue (.refl s) fun _ => State.eventFrame_reconfigure _
  | propNoisePeriod | propEnvPeriod | propEnvHold | propEnvAlternate | propEnvAttack | propEnvContinue =>
    exact ends_onValue (.refl s) fun _ => rfl
  | propTonePeriod | propLevel | propEnvOn | propToneOn | propNoiseOn =>
    exact ends_onChannelValue (.refl s) fun _ _ => rfl
  | systemReset => exact execSystemReset_keepsEventFrame s
  | polyAftertouch | ccOther | channelPressure | systemOther | propUnknown => exact ends_next (.refl s)
  | block | renderStep | modTick | construct => simp [Instr.isEvent] at hi

/-- Settles O55: the event frame holds every field the statement names. -/
theorem eventsLeaveAlone : Obligations.EventsLeaveAlone := by
  intro i s t hi ht
  have h : t.eventFrame = s.eventFrame := exec_keepsEventFrame hi s t ht
  simpa [State.eventFrame] using h

/-! ### The shape of a block -/

theorem lt_of_firstBeyond_eq_none {n : BitVec 32} {events : List Event} (h : firstBeyond n events = none) :
    ∀ e ∈ events, e.offset.toNat < n.toNat := by
  simpa [firstBeyond] using h

/-- Writing the frame at the cursor makes the written frames those below the next cursor. -/
theorem written_set {buf : List (Option Binary32)} {n cursor : Nat} (hlen : buf.length = n)
    (h : ∀ i, i < n → ((∃ x, buf[i]? = some (some x)) ↔ i < cursor)) (y : Binary32) (i : Nat) (hi : i < n) :
    (∃ x, (buf.set cursor (some y))[i]? = some (some x)) ↔ i < cursor + 1 := by
  by_cases hic : i = cursor
  · subst hic
    simp [hlen, hi]
  · rw [List.getElem?_set_ne (Ne.symm hic), h i hi]
    omega

namespace State.BlockShape

variable {s : State}

/-- The shape depends on the block's registers only. -/
theorem congr {t : State} (h : s.BlockShape) (frames : t.frames = s.frames := by rfl)
    (cursor : t.cursor = s.cursor := by rfl) (evIdx : t.evIdx = s.evIdx := by rfl)
    (events : t.events = s.events := by rfl) (outL : t.outL = s.outL := by rfl) (outR : t.outR = s.outR := by rfl) :
    t.BlockShape := by
  obtain ⟨hcursor, hevIdx, hoffsets, hlenL, hlenR, hwrittenL, hwrittenR⟩ := h
  constructor <;> simpa only [frames, cursor, evIdx, events, outL, outR]

theorem of_eventFrame {t : State} (h : s.BlockShape) (ht : t.eventFrame = s.eventFrame) : t.BlockShape :=
  h.congr (congrArg EventFrame.frames ht) (congrArg EventFrame.cursor ht) (congrArg EventFrame.evIdx ht)
    (congrArg EventFrame.events ht) (congrArg EventFrame.outL ht) (congrArg EventFrame.outR ht)

theorem advance (h : s.BlockShape) (hlt : s.evIdx < s.events.length) : s.advance.BlockShape :=
  { h with evIdx_le := hlt }

/-- A frame keeps the shape where there is one left to write (R243). -/
theorem renderFrame (h : s.BlockShape) (hlt : s.cursor < s.frames.toNat) : s.renderFrame.BlockShape := by
  rw [State.renderFrame_eq]
  exact {
    cursor_le := hlt
    evIdx_le := h.evIdx_le
    offsets := h.offsets
    lenL := by simpa using h.lenL
    lenR := by simpa using h.lenR
    writtenL := written_set h.lenL h.writtenL _
    writtenR := written_set h.lenR h.writtenR _ }

/-- A block that keeps the host contract opens with no frame written (R242). -/
theorem openBlock {n : BitVec 32} {events : List Event} (h : firstBeyond n events = none) :
    (s.openBlock n events).BlockShape where
  cursor_le := Nat.zero_le _
  evIdx_le := Nat.zero_le _
  offsets := lt_of_firstBeyond_eq_none h
  lenL := List.length_replicate
  lenR := List.length_replicate
  writtenL i _ := by simp [List.getElem?_replicate]
  writtenR i _ := by simp [List.getElem?_replicate]

/-- A construction leaves an idle block of no frames (R46). -/
theorem constructed (rate : Binary64) (dc : Bool) (params : Params) (ok : Bool) (calls : List HostCall)
    (cfgAnswers : List Bool) (renderAnswers : List (Binary32 × Binary32)) (draws : Nat) :
    (State.constructed rate dc params ok calls cfgAnswers renderAnswers draws).BlockShape where
  cursor_le := Nat.le_refl _
  evIdx_le := Nat.le_refl _
  offsets := by simp [State.constructed]
  lenL := rfl
  lenR := rfl
  writtenL i hi := absurd hi (Nat.not_lt_zero i)
  writtenR i hi := absurd hi (Nat.not_lt_zero i)

end State.BlockShape

section
variable {s : State} (h : s.BlockShape)
include h

theorem execRenderStep_blockShape : Ends State.BlockShape (execRenderStep s) := by
  unfold execRenderStep
  split
  · next hlt => exact ends_next (h.renderFrame hlt)
  · exact ends_fault _ _

/-- The step that takes an event finds the event there, so `EV_IDX + 1` stays within the sequence. -/
theorem stepEvent_blockShape {e : Event} (he : s.events[s.evIdx]? = some e) :
    Ends State.BlockShape (stepEvent e s) := by
  have hlt : s.evIdx < s.events.length := (List.getElem?_eq_some_iff.1 he).1
  unfold stepEvent
  cases hd : decode e.payload with
  | malformed why => exact ends_next (h.advance hlt)
  | instr i =>
    refine (exec_keepsEventFrame (decode_isEvent hd) s).andThen fun t ht => ends_next ?_
    refine (h.of_eventFrame ht).advance ?_
    have hevIdx : t.evIdx = s.evIdx := congrArg EventFrame.evIdx ht
    have hevents : t.events = s.events := congrArg EventFrame.events ht
    rwa [hevIdx, hevents]

theorem startCall_blockShape (call : HostCall) : Ends State.BlockShape (startCall call s) := by
  cases call with
  | construct cap rate dc params =>
    show Ends State.BlockShape (execConstruct cap rate dc params s)
    unfold execConstruct
    split
    · exact ends_next (.constructed ..)
    · exact ends_refused _ _
  | block n events =>
    simp only [startCall]
    split
    · exact ends_next h.congr
    · next hnone =>
      split
      · exact ends_next h
      · exact ends_next (.openBlock hnone)

theorem stepIdle_blockShape : Ends State.BlockShape (stepIdle s) := by
  unfold stepIdle
  split
  · exact ends_fault _ _
  · split
    · exact ends_next h
    · exact startCall_blockShape h.congr _

end

/-- All that a step can be: a render step, the event that is due, or the idle step. -/
theorem step_cases (s : State) :
    step s = execRenderStep s ∨ (∃ e, s.events[s.evIdx]? = some e ∧ step s = stepEvent e s) ∨ step s = stepIdle s := by
  cases he : s.events[s.evIdx]? with
  | some e =>
    by_cases hc : s.cursor < e.offset.toNat
    · exact .inl (step_render he hc)
    · exact .inr (.inl ⟨e, rfl, step_event he (by omega)⟩)
  | none =>
    by_cases hc : s.cursor < s.frames.toNat
    · exact .inl (step_tail he hc)
    · exact .inr (.inr (by simp [step, he, hc]))

/-- Settles O53: each of the three kinds of step keeps the shape. -/
theorem stepKeepsBlockShape : Obligations.StepKeepsBlockShape := by
  intro s t h ht
  obtain hs | ⟨e, he, hs⟩ | hs := step_cases s
  · exact execRenderStep_blockShape h t (hs ▸ ht)
  · exact stepEvent_blockShape h he t (hs ▸ ht)
  · exact stepIdle_blockShape h t (hs ▸ ht)

end Sys2Proof.Machine

/-! # What goes to the chip

An event reads its gate before it sends and writes its registers before it sends a tone, so the predicate
`State.SendsGated` (the trace grew, and whoever was sent a tone is sounding) is built up command by command along the
meaning. Only the tone override, the block and the construction are outside it. -/

namespace Sys2Proof.Machine

/-- From `s` to `t` the trace grew by commands of which each tone went to a channel that sounds in `t` (R32). -/
def State.SendsGated (s t : State) : Prop :=
  ∃ new, t.chipTrace = s.chipTrace ++ new ∧ ∀ k period, .tone k period ∈ new → t.sounding k = true

namespace State.SendsGated

variable {s t : State}

/-- A state with the same trace has sent nothing, whatever registers were written. -/
theorem of_chipTrace (h : t.chipTrace = s.chipTrace) : s.SendsGated t :=
  ⟨[], by simpa using h, by simp⟩

theorem refl (s : State) : s.SendsGated s := of_chipTrace rfl

/-- The predicate reads the trace and the channels only. -/
theorem congr {u : State} (h : s.SendsGated t) (chipTrace : u.chipTrace = t.chipTrace := by rfl)
    (ch : u.ch = t.ch := by rfl) : s.SendsGated u := by
  obtain ⟨new, hnew, htone⟩ := h
  refine ⟨new, chipTrace.trans hnew, fun k period hmem => ?_⟩
  rw [State.sounding, State.chan_congr ch]
  exact htone k period hmem

/-- Sending one more command: a tone needs its channel sounding. -/
theorem emit_of {cmd : ChipCmd} (h : s.SendsGated t) (hcmd : ∀ k period, cmd = .tone k period → t.sounding k = true) :
    s.SendsGated (t.emit cmd) := by
  obtain ⟨new, hnew, htone⟩ := h
  refine ⟨new ++ [cmd], by simp [hnew], fun k period hmem => ?_⟩
  rcases List.mem_append.1 hmem with hold | hcur
  · exact htone k period hold
  · exact hcmd k period (List.mem_singleton.1 hcur).symm

theorem emit {cmd : ChipCmd} (h : s.SendsGated t) (hcmd : ∀ k period, cmd ≠ .tone k period := by nofun) :
    s.SendsGated (t.emit cmd) :=
  h.emit_of fun k period htone => absurd htone (hcmd k period)

theorem pushTone {c : Fin 3} (h : s.SendsGated t) (hc : t.sounding c = true) : s.SendsGated (t.pushTone c) :=
  h.emit_of fun k period htone => by
    obtain ⟨rfl, -⟩ := ChipCmd.tone.inj htone
    exact hc

theorem toneUpdate {c : Fin 3} (h : s.SendsGated t) : s.SendsGated (t.toneUpdate c) := by
  unfold State.toneUpdate
  split
  · next hc => exact h.pushTone hc
  · exact h

theorem modTickChannel {c : Fin 3} (h : s.SendsGated t) : s.SendsGated (t.modTickChannel c) := by
  unfold State.modTickChannel
  split
  · next hc =>
    obtain ⟨hsounding, -⟩ := Bool.and_eq_true_iff.1 hc
    exact h.pushTone hsounding
  · exact h

theorem pushLevel {c : Fin 3} (h : s.SendsGated t) : s.SendsGated (t.pushLevel c) := by
  unfold State.pushLevel
  split
  · exact h.emit
  · exact h

theorem emitCfg (h : s.SendsGated t) : s.SendsGated t.emitCfg :=
  (h.emit (cmd := .cfg t.mode t.clockHz t.sampleRate t.cfgOk)).congr

theorem reconfigure (h : s.SendsGated t) : s.SendsGated t.reconfigure := h.emitCfg.toneUpdate.toneUpdate.toneUpdate

theorem modTick (h : s.SendsGated t) : s.SendsGated t.modTick := h.modTickChannel.modTickChannel.modTickChannel

theorem renderFrame (h : s.SendsGated t) : s.SendsGated t.renderFrame :=
  (h.modTick.emit (cmd := .render t.modTick.removeDc t.modTick.samplePair.1 t.modTick.samplePair.2)).congr

theorem pushChannelReset {c : Fin 3} (h : s.SendsGated t) : s.SendsGated (t.pushChannelReset c) :=
  h.emit.emit.emit.emit

/-- Silencing a channel sends `VOL` alone. -/
theorem noteOff (s : State) (c : Fin 3) (n : BitVec 7) : s.SendsGated (s.noteOff c n) := by
  unfold State.noteOff
  split
  · exact ((of_chipTrace (t := s.setChan c { s.chan c with note := -1 }) rfl).emit (cmd := .vol c 0)).congr
  · exact refl s

theorem silence (s : State) (c : Fin 3) : s.SendsGated (s.silence c) := by
  unfold State.silence
  split
  · exact ((of_chipTrace (t := s.setChan c { s.chan c with note := -1 }) rfl).emit (cmd := .vol c 0)).congr
  · exact refl s

/-- The note started is no -1, so the channel sounds when its tone is sent (R124). -/
theorem startNote (s : State) (c : Fin 3) (n v : BitVec 7) : s.SendsGated (s.startNote c n v) := by
  have hsounding : (s.setChan c { s.chan c with note := n.toNat, vel := v }).sounding c = true := by
    simp only [State.sounding, Channel.sounding, State.chan_setChan_self, bne_iff_ne]
    omega
  exact (of_chipTrace rfl).emit.emit.pushTone hsounding

theorem noteOn (s : State) (c : Fin 3) (n v : BitVec 7) : s.SendsGated (s.noteOn c n v) := by
  unfold State.noteOn
  split
  · exact startNote s c n v
  · split
    · exact refl s
    · exact startNote s c n v

end State.SendsGated

/-! ### Every meaning but three is gated -/

section
variable (s : State)

theorem execNoteOnVel0_sendsGated (c : BitVec 4) (n : BitVec 7) : Ends s.SendsGated (execNoteOnVel0 c n s) := by
  refine ends_onChannel (.refl s) fun k => ?_
  split
  · exact .noteOn s k n 0
  · exact .noteOff s k n

theorem execCcResetControllers_sendsGated (c : BitVec 4) (v : BitVec 7) :
    Ends s.SendsGated (execCcResetControllers c v s) := by
  refine ends_onChannel (.refl s) fun k => ?_
  split
  · next hk => exact ((State.SendsGated.refl s).pushTone hk).pushLevel
  · exact .refl s

theorem execSystemReset_sendsGated : Ends s.SendsGated (execSystemReset s) :=
  ends_next (State.SendsGated.of_chipTrace (s := s) (t := s.resetRegisters) rfl
    |>.pushChannelReset.pushChannelReset.pushChannelReset.emit.emit.emit)

theorem execRenderStep_sendsGated : Ends s.SendsGated (execRenderStep s) := by
  unfold execRenderStep
  split
  · exact ends_next (State.SendsGated.refl s).renderFrame
  · exact ends_fault _ _

/-- Whatever an instruction sends is gated, the tone override, the block and the construction apart. -/
theorem exec_sendsGated {i : Instr} (hover : ∀ c v, i ≠ .propTonePeriod c v) (hblock : ∀ n es, i ≠ .block n es)
    (hcons : ∀ cap rate dc p, i ≠ .construct cap rate dc p) : Ends s.SendsGated (exec i s) := by
  cases i with
  | noteOff c n v => exact ends_onChannel (.refl s) fun k => .noteOff s k n
  | noteOnVel0 c n => exact execNoteOnVel0_sendsGated s c n
  | noteOn c n v => exact ends_onChannel (.refl s) fun k => .noteOn s k n v
  | ccModWheel | pitchBend => exact ends_onChannel (.refl s) fun _ => .toneUpdate (.of_chipTrace rfl)
  | ccMainVolume => exact ends_onChannel (.refl s) fun _ => .pushLevel (.of_chipTrace rfl)
  | ccAllSoundOff | ccAllNotesOff => exact ends_onChannel (.refl s) fun k => .silence s k
  | ccResetControllers c v => exact execCcResetControllers_sendsGated s c v
  | ccPan | ccGp1Noise | ccGp2EnvCoarse | ccGp3EnvFine | ccGp4EnvShape =>
    exact ends_onChannel (.refl s) fun _ => .emit (.of_chipTrace rfl)
  | programChange => exact ends_onChannel (.refl s) fun _ => .emit (.emit (.emit (.of_chipTrace rfl)))
  | propClock | propMode => exact ends_onValue (.refl s) fun _ => .reconfigure (.of_chipTrace rfl)
  | propNoisePeriod | propEnvPeriod | propEnvHold | propEnvAlternate | propEnvAttack | propEnvContinue =>
    exact ends_onValue (.refl s) fun _ => .emit (.of_chipTrace rfl)
  | propLevel | propEnvOn | propToneOn | propNoiseOn =>
    exact ends_onChannelValue (.refl s) fun _ _ => .emit (.of_chipTrace rfl)
  | systemReset => exact execSystemReset_sendsGated s
  | polyAftertouch | ccOther | channelPressure | systemOther | propUnknown => exact ends_next (.refl s)
  | renderStep => exact execRenderStep_sendsGated s
  | modTick => exact ends_next (State.SendsGated.refl s).modTick
  | propTonePeriod c v => exact absurd rfl (hover c v)
  | block n es => exact absurd rfl (hblock n es)
  | construct cap rate dc p => exact absurd rfl (hcons cap rate dc p)

end

/-- Settles O58: the commands sent are those that `exec_sendsGated` speaks of. -/
theorem tonesOnlyWhileSounding : Obligations.TonesOnlyWhileSounding := by
  intro i s t new k period hover hblock hcons ht hnew hmem
  obtain ⟨sent, hsent, htone⟩ := exec_sendsGated s hover hblock hcons t ht
  have hsame : sent = new := List.append_cancel_left (hsent.symm.trans hnew)
  exact htone k period (hsame ▸ hmem)

/-! ### The trace only grows -/

/-- `t`'s trace is that of `s` with commands appended. -/
def State.Appends (s t : State) : Prop := ∃ new, t.chipTrace = s.chipTrace ++ new

theorem State.Appends.refl (s : State) : s.Appends s := ⟨[], by simp⟩

theorem State.Appends.trans {s t u : State} (hst : s.Appends t) (htu : t.Appends u) : s.Appends u := by
  obtain ⟨new, hnew⟩ := hst
  obtain ⟨later, hlater⟩ := htu
  exact ⟨new ++ later, by rw [hlater, hnew, List.append_assoc]⟩

theorem State.SendsGated.appends {s t : State} (h : s.SendsGated t) : s.Appends t := by
  obtain ⟨new, hnew, -⟩ := h
  exact ⟨new, hnew⟩

theorem Ends.appends_trans {s t : State} {r : Result} (hr : Ends t.Appends r) (hst : s.Appends t) :
    Ends s.Appends r :=
  hr.mono fun _ => hst.trans

theorem execPropTonePeriod_appends (chan : Byte) (value : PropValue) (s : State) :
    Ends s.Appends (execPropTonePeriod chan value s) :=
  ends_onChannelValue (.refl s) fun _ _ => ⟨_, rfl⟩

theorem exec_appends {i : Instr} (hi : i.isEvent = true) (s : State) : Ends s.Appends (exec i s) := by
  by_cases hover : ∃ c v, i = .propTonePeriod c v
  · obtain ⟨c, v, rfl⟩ := hover
    exact execPropTonePeriod_appends c v s
  · have hblock : ∀ n es, i ≠ .block n es := fun n es h => by simp [h, Instr.isEvent] at hi
    have hcons : ∀ cap rate dc p, i ≠ .construct cap rate dc p := fun cap rate dc p h => by
      simp [h, Instr.isEvent] at hi
    exact (exec_sendsGated s (fun c v h => hover ⟨c, v, h⟩) hblock hcons).mono fun _ => State.SendsGated.appends

theorem stepEvent_appends (e : Event) (s : State) : Ends s.Appends (stepEvent e s) := by
  unfold stepEvent
  cases hd : decode e.payload with
  | malformed why => exact ends_next (State.Appends.refl s)
  | instr i => exact (exec_appends (decode_isEvent hd) s).andThen fun t ht => ends_next ht

theorem execRenderStep_appends (s : State) : Ends s.Appends (execRenderStep s) :=
  (execRenderStep_sendsGated s).mono fun _ => State.SendsGated.appends

theorem renderFrames_appends (k : Nat) (s : State) : Ends s.Appends (renderFrames k s) := by
  induction k generalizing s with
  | zero => exact ends_next (State.Appends.refl s)
  | succ k ih => exact (execRenderStep_appends s).andThen fun t ht => (ih t).appends_trans ht

theorem runEvents_appends (es : List Event) (s : State) : Ends s.Appends (runEvents es s) := by
  induction es generalizing s with
  | nil => exact renderFrames_appends _ s
  | cons e rest ih =>
    have hrender : Ends s.Appends (renderTo e.offset.toNat s) := renderFrames_appends _ s
    refine (hrender.andThen fun t ht => ?_).andThen fun t ht => (ih t).appends_trans ht
    rw [applyEvent_eq_stepEvent]
    exact (stepEvent_appends e t).appends_trans ht

theorem execBlock_appends (n : BitVec 32) (es : List Event) (s : State) : Ends s.Appends (execBlock n es s) := by
  unfold execBlock
  split
  · exact ends_fault _ _
  · split
    · exact ends_next (State.Appends.refl s)
    · split
      · exact ends_next (State.Appends.refl s)
      · exact (runEvents_appends es (s.openBlock n es)).appends_trans (State.Appends.refl s)

/-- Settles O57: events and frames append, and a block is a sequence of them. -/
theorem traceOnlyGrows : Obligations.TraceOnlyGrows := by
  intro i s t hcons ht
  cases i with
  | block n es => exact execBlock_appends n es s t ht
  | renderStep => exact execRenderStep_appends s t ht
  | modTick => exact (ends_next (State.SendsGated.refl s).modTick t ht).appends
  | construct cap rate dc p => exact absurd rfl (hcons cap rate dc p)
  | _ => exact exec_appends rfl s t ht

end Sys2Proof.Machine

/-! # Which events write which registers

`Writers i s t` is the statement for one instruction. Its clauses are implications with default proofs, so an arm of
`exec` states only the registers its event writes, and `simp` fills in those it leaves alone. -/

namespace Sys2Proof.Machine

/-- From entry `x` to entry `y` of a channel, `i` may have written what differs (R35, R36, R38, R39, R41). -/
structure ChannelWriters (i : Instr) (x y : Channel) : Prop where
  vel : y.vel ≠ x.vel → (∃ c n v, i = .noteOn c n v) ∨ ∃ c n, i = .noteOnVel0 c n := by simp
  volume : y.volume ≠ x.volume → (∃ c v, i = .ccMainVolume c v) ∨ i = .systemReset := by simp
  bend : y.bend ≠ x.bend → ∃ c l m, i = .pitchBend c l m := by simp
  depth : y.depth ≠ x.depth → (∃ c v, i = .ccModWheel c v) ∨ i = .systemReset := by simp
  pan : y.pan ≠ x.pan → (∃ c v, i = .ccPan c v) ∨ i = .systemReset := by simp

theorem ChannelWriters.refl (i : Instr) (x : Channel) : ChannelWriters i x x := {}

/-- System Reset keeps `VEL` and `BEND` (R129). -/
theorem ChannelWriters.systemReset (x : Channel) : ChannelWriters .systemReset x x.systemReset where
  vel h := absurd rfl h
  bend h := absurd rfl h

/-- From `s` to `t`, `i` may have written what differs (R21, R23, R29, and each channel's registers). -/
structure Writers (i : Instr) (s t : State) : Prop where
  clockHz : t.clockHz ≠ s.clockHz → ∃ c v, i = .propClock c v := by simp
  mode : t.mode ≠ s.mode → ∃ c v, i = .propMode c v := by simp
  cfgInvalid : t.cfgInvalid ≠ s.cfgInvalid → (∃ c v, i = .propClock c v) ∨ ∃ c v, i = .propMode c v := by simp
  chan : ∀ k, ChannelWriters i (s.chan k) (t.chan k) := by exact fun _ => .refl _ _

namespace Writers

variable {i : Instr} {s t : State}

theorem refl (i : Instr) (s : State) : Writers i s s := {}

/-- The predicate reads four fields only. -/
theorem congr {u : State} (h : Writers i s t) (ch : u.ch = t.ch := by rfl) (clockHz : u.clockHz = t.clockHz := by rfl)
    (mode : u.mode = t.mode := by rfl) (cfgInvalid : u.cfgInvalid = t.cfgInvalid := by rfl) : Writers i s u where
  clockHz := clockHz ▸ h.clockHz
  mode := mode ▸ h.mode
  cfgInvalid := cfgInvalid ▸ h.cfgInvalid
  chan k := State.chan_congr ch k ▸ h.chan k

theorem emit {cmd : ChipCmd} (h : Writers i s t) : Writers i s (t.emit cmd) := h.congr

theorem toneUpdate {c : Fin 3} (h : Writers i s t) : Writers i s (t.toneUpdate c) := by
  rw [State.toneUpdate_eq]; exact h.congr

theorem pushLevel {c : Fin 3} (h : Writers i s t) : Writers i s (t.pushLevel c) := by
  rw [State.pushLevel_eq]; exact h.congr

/-- A reconfiguration writes `CFG_INVALID` (R280). -/
theorem reconfigure (h : Writers i s t) (hi : (∃ c v, i = .propClock c v) ∨ ∃ c v, i = .propMode c v) :
    Writers i s t.reconfigure := by
  unfold State.reconfigure
  rw [State.retune_eq]
  exact { clockHz := h.clockHz, mode := h.mode, cfgInvalid := fun _ => hi, chan := h.chan }

theorem setChan {c : Fin 3} {x : Channel} (h : ChannelWriters i (s.chan c) x) : Writers i s (s.setChan c x) where
  chan k := by
    rw [State.chan_setChan]
    split
    · next hk => exact hk ▸ h
    · exact .refl _ _

theorem pushChannelReset {c : Fin 3} (h : Writers i s t) : Writers i s (t.pushChannelReset c) := h.emit.emit.emit.emit

/-- Clearing a note writes no register of the statement, whatever silences the channel. -/
theorem noteOff (i : Instr) (s : State) (c : Fin 3) (n : BitVec 7) : Writers i s (s.noteOff c n) := by
  unfold State.noteOff
  split
  · exact (setChan (c := c) (x := { s.chan c with note := -1 }) {}).congr
  · exact refl i s

theorem silence (i : Instr) (s : State) (c : Fin 3) : Writers i s (s.silence c) := by
  unfold State.silence
  split
  · exact (setChan (c := c) (x := { s.chan c with note := -1 }) {}).congr
  · exact refl i s

/-- A note-on writes the velocity, under either of its two rows. -/
theorem noteOn (hi : (∃ c n v, i = .noteOn c n v) ∨ ∃ c n, i = .noteOnVel0 c n) (s : State) (c : Fin 3)
    (n v : BitVec 7) : Writers i s (s.noteOn c n v) := by
  have hstart : Writers i s (s.startNote c n v) :=
    (setChan (c := c) (x := { s.chan c with note := n.toNat, vel := v }) { vel := fun _ => hi }).congr
  unfold State.noteOn
  split
  · exact hstart
  · split
    · exact refl i s
    · exact hstart

end Writers

section
variable (s : State)

theorem execNoteOnVel0_writers (c : BitVec 4) (n : BitVec 7) :
    Ends (Writers (.noteOnVel0 c n) s) (execNoteOnVel0 c n s) := by
  refine ends_onChannel (.refl _ s) fun k => ?_
  split
  · exact .noteOn (.inr ⟨c, n, rfl⟩) s k n 0
  · exact .noteOff _ s k n

theorem execCcResetControllers_writers (c : BitVec 4) (v : BitVec 7) :
    Ends (Writers (.ccResetControllers c v) s) (execCcResetControllers c v s) := by
  refine ends_onChannel (.refl _ s) fun k => ?_
  split
  · exact .pushLevel (.emit (.refl _ s))
  · exact .refl _ s

theorem execSystemReset_writers : Ends (Writers .systemReset s) (execSystemReset s) := by
  have hregisters : Writers .systemReset s s.resetRegisters :=
    { chan := fun k => by rw [State.chan_resetRegisters]; exact .systemReset _ }
  exact ends_next hregisters.pushChannelReset.pushChannelReset.pushChannelReset.emit.emit.emit

theorem execPropClock_writers (chan : Byte) (value : PropValue) :
    Ends (Writers (.propClock chan value) s) (execPropClock chan value s) :=
  ends_onValue (.refl _ s) fun hz =>
    .reconfigure (t := { s with clockHz := hz }) {} (.inl ⟨chan, value, rfl⟩)

theorem execPropMode_writers (chan : Byte) (value : PropValue) :
    Ends (Writers (.propMode chan value) s) (execPropMode chan value s) :=
  ends_onValue (.refl _ s) fun b =>
    .reconfigure (t := { s with mode := modeOf b }) {} (.inr ⟨chan, value, rfl⟩)

/-- Every event writes only the registers that the statement allows it. -/
theorem exec_writers {i : Instr} (hi : i.isEvent = true) : Ends (Writers i s) (exec i s) := by
  cases i with
  | noteOff c n v => exact ends_onChannel (.refl _ s) fun k => .noteOff _ s k n
  | noteOnVel0 c n => exact execNoteOnVel0_writers s c n
  | noteOn c n v => exact ends_onChannel (.refl _ s) fun k => .noteOn (.inl ⟨c, n, v, rfl⟩) s k n v
  | ccModWheel | pitchBend => exact ends_onChannel (.refl _ s) fun _ => .toneUpdate (.setChan {})
  | ccMainVolume => exact ends_onChannel (.refl _ s) fun _ => .pushLevel (.setChan {})
  | ccPan => exact ends_onChannel (.refl _ s) fun _ => .emit (.setChan {})
  | programChange => exact ends_onChannel (.refl _ s) fun _ => .emit (.emit (.emit (.setChan {})))
  | ccAllSoundOff | ccAllNotesOff => exact ends_onChannel (.refl _ s) fun k => .silence _ s k
  | ccResetControllers c v => exact execCcResetControllers_writers s c v
  | ccGp1Noise | ccGp2EnvCoarse | ccGp3EnvFine | ccGp4EnvShape =>
    exact ends_onChannel (.refl _ s) fun _ => (Writers.refl _ s).congr
  | propClock chan value => exact execPropClock_writers s chan value
  | propMode chan value => exact execPropMode_writers s chan value
  | propNoisePeriod | propEnvPeriod | propEnvHold | propEnvAlternate | propEnvAttack | propEnvContinue =>
    exact ends_onValue (.refl _ s) fun _ => (Writers.refl _ s).congr
  | propTonePeriod | propLevel => exact ends_onChannelValue (.refl _ s) fun _ _ => .emit (.refl _ s)
  | propEnvOn | propToneOn | propNoiseOn =>
    exact ends_onChannelValue (.refl _ s) fun _ _ => .emit (.setChan {})
  | systemReset => exact execSystemReset_writers s
  | polyAftertouch | ccOther | channelPressure | systemOther | propUnknown => exact ends_next (.refl _ s)
  | block | renderStep | modTick | construct => simp [Instr.isEvent] at hi

end

/-- Settles O56: `Writers` clause by clause. -/
theorem soleWriters : Obligations.SoleWriters := by
  intro i s t hi ht
  obtain ⟨hclock, hmode, hcfg, hchan⟩ := exec_writers s hi t ht
  refine ⟨hclock, hmode, hcfg, fun k => ?_⟩
  obtain ⟨hvel, hvolume, hbend, hdepth, hpan⟩ := hchan k
  exact ⟨hvel, hvolume, hbend, hdepth, hpan⟩

end Sys2Proof.Machine

/-! # A block reads nothing that the observation port hides

Once `BLOCK` has put its inputs in place, two states that the port shows alike differ at most in the pending calls and in
the index of a fault. `State.withHost` replaces these two, and every event and every frame commutes with it. -/

namespace Sys2Proof.Machine

/-- `s` with other pending calls and another fault index. -/
def State.withHost (s : State) (calls : List HostCall) (j : Nat) : State := { s with calls := calls, faultIndex := j }

/-- The answer with the host's fields replaced in its next state. -/
def hosted (calls : List HostCall) (j : Nat) (r : Result) : Result := andThen r fun t => .next (t.withHost calls j)

section
variable (calls : List HostCall) (j : Nat)

@[simp] theorem hosted_next (s : State) : hosted calls j (.next s) = .next (s.withHost calls j) := rfl

@[simp] theorem hosted_fault (why : Fault) : hosted calls j (.fault why) = .fault why := rfl

/-- A sequence commutes with the replacement if its parts do. -/
theorem hosted_andThen (r : Result) {f : State → Result}
    (hf : ∀ t : State, f (t.withHost calls j) = hosted calls j (f t)) :
    andThen (hosted calls j r) f = hosted calls j (andThen r f) := by
  cases r with
  | next t => exact hf t
  | fault | refused => rfl

variable (s : State)

theorem onChannel_withHost (c : BitVec 4) {f g : Fin 3 → State} (h : ∀ k, g k = (f k).withHost calls j) :
    onChannel c (s.withHost calls j) g = hosted calls j (onChannel c s f) := by
  unfold onChannel
  split <;> simp [h]

theorem onValue_withHost {α : Type} (o : Option α) {f g : α → State} (h : ∀ a, g a = (f a).withHost calls j) :
    onValue o (s.withHost calls j) g = hosted calls j (onValue o s f) := by
  unfold onValue
  split <;> simp [h]

theorem onChannelValue_withHost {α : Type} (o : Option α) (chan : Byte) {f g : Fin 3 → α → State}
    (h : ∀ c a, g c a = (f c a).withHost calls j) :
    onChannelValue o chan (s.withHost calls j) g = hosted calls j (onChannelValue o chan s f) := by
  unfold onChannelValue
  split <;> simp [h]

/-! ### Reads and operations -/

variable (c : Fin 3)

@[simp] theorem State.withHost_params : (s.withHost calls j).params = s.params := rfl

@[simp] theorem State.withHost_chan : (s.withHost calls j).chan c = s.chan c := rfl

@[simp] theorem State.withHost_sounding : (s.withHost calls j).sounding c = s.sounding c := rfl

@[simp] theorem State.emit_withHost (cmd : ChipCmd) :
    (s.withHost calls j).emit cmd = (s.emit cmd).withHost calls j := rfl

@[simp] theorem State.setChan_withHost (x : Channel) :
    (s.withHost calls j).setChan c x = (s.setChan c x).withHost calls j := rfl

@[simp] theorem State.pushTone_withHost : (s.withHost calls j).pushTone c = (s.pushTone c).withHost calls j := rfl

@[simp] theorem State.resetRegisters_withHost :
    (s.withHost calls j).resetRegisters = s.resetRegisters.withHost calls j := rfl

@[simp] theorem State.toneUpdate_withHost : (s.withHost calls j).toneUpdate c = (s.toneUpdate c).withHost calls j := by
  rw [State.toneUpdate_eq, State.toneUpdate_eq]; rfl

@[simp] theorem State.pushLevel_withHost : (s.withHost calls j).pushLevel c = (s.pushLevel c).withHost calls j := by
  rw [State.pushLevel_eq, State.pushLevel_eq]; rfl

@[simp] theorem State.pushChannelReset_withHost :
    (s.withHost calls j).pushChannelReset c = (s.pushChannelReset c).withHost calls j := by
  simp [State.pushChannelReset]

theorem State.reconfigure_withHost : (s.withHost calls j).reconfigure = s.reconfigure.withHost calls j := by
  unfold State.reconfigure
  rw [State.retune_eq, State.retune_eq]; rfl

theorem State.renderFrame_withHost : (s.withHost calls j).renderFrame = s.renderFrame.withHost calls j := by
  rw [State.renderFrame_eq, State.renderFrame_eq, State.modTick_eq, State.modTick_eq]; rfl

theorem State.noteOff_withHost (n : BitVec 7) :
    (s.withHost calls j).noteOff c n = (s.noteOff c n).withHost calls j := by
  unfold State.noteOff
  rw [State.withHost_chan]
  split <;> rfl

theorem State.silence_withHost : (s.withHost calls j).silence c = (s.silence c).withHost calls j := by
  unfold State.silence
  rw [State.withHost_sounding]
  split <;> rfl

theorem State.noteOn_withHost (n v : BitVec 7) :
    (s.withHost calls j).noteOn c n v = (s.noteOn c n v).withHost calls j := by
  unfold State.noteOn
  rw [State.withHost_params, State.withHost_sounding]
  split
  · rfl
  · split <;> rfl

theorem execNoteOnVel0_withHost (c : BitVec 4) (n : BitVec 7) :
    execNoteOnVel0 c n (s.withHost calls j) = hosted calls j (execNoteOnVel0 c n s) := by
  refine onChannel_withHost calls j s c fun k => ?_
  rw [State.withHost_params]
  split
  · exact s.noteOn_withHost calls j k n 0
  · exact s.noteOff_withHost calls j k n

theorem execCcResetControllers_withHost (c : BitVec 4) (v : BitVec 7) :
    execCcResetControllers c v (s.withHost calls j) = hosted calls j (execCcResetControllers c v s) := by
  refine onChannel_withHost calls j s c fun k => ?_
  rw [State.withHost_sounding]
  split
  · exact (s.pushTone k).pushLevel_withHost calls j k
  · rfl

theorem execSystemReset_withHost : execSystemReset (s.withHost calls j) = hosted calls j (execSystemReset s) := by
  simp [execSystemReset]

/-! ### Events and frames -/

/-- No event reads the pending calls or the fault index. -/
theorem exec_withHost {i : Instr} (hi : i.isEvent = true) :
    exec i (s.withHost calls j) = hosted calls j (exec i s) := by
  cases i with
  | noteOff c n v => exact onChannel_withHost calls j s c fun k => s.noteOff_withHost calls j k n
  | noteOnVel0 c n => exact execNoteOnVel0_withHost calls j s c n
  | noteOn c n v => exact onChannel_withHost calls j s c fun k => s.noteOn_withHost calls j k n v
  | ccModWheel c | pitchBend c | ccMainVolume c => exact onChannel_withHost calls j s c fun _ => by simp
  | ccAllSoundOff c | ccAllNotesOff c =>
    exact onChannel_withHost calls j s c fun k => s.silence_withHost calls j k
  | ccResetControllers c v => exact execCcResetControllers_withHost calls j s c v
  | ccPan c | ccGp1Noise c | ccGp2EnvCoarse c | ccGp3EnvFine c | ccGp4EnvShape c | programChange c =>
    exact onChannel_withHost calls j s c fun _ => rfl
  | propClock _ value =>
    exact onValue_withHost calls j s (clockValue value) fun hz =>
      State.reconfigure_withHost calls j { s with clockHz := hz }
  | propMode _ value =>
    exact onValue_withHost calls j s (boolValue value) fun b =>
      State.reconfigure_withHost calls j { s with mode := modeOf b }
  | propNoisePeriod | propEnvPeriod | propEnvHold | propEnvAlternate | propEnvAttack | propEnvContinue =>
    exact onValue_withHost calls j s _ fun _ => rfl
  | propTonePeriod chan | propLevel chan | propEnvOn chan | propToneOn chan | propNoiseOn chan =>
    exact onChannelValue_withHost calls j s _ chan fun _ _ => rfl
  | systemReset => exact execSystemReset_withHost calls j s
  | polyAftertouch | ccOther | channelPressure | systemOther | propUnknown => exact (hosted_next calls j s).symm
  | block | renderStep | modTick | construct => simp [Instr.isEvent] at hi

theorem applyEvent_withHost (e : Event) :
    applyEvent e (s.withHost calls j) = hosted calls j (applyEvent e s) := by
  rw [applyEvent_eq_stepEvent, applyEvent_eq_stepEvent]
  unfold stepEvent
  cases hd : decode e.payload with
  | malformed why => rfl
  | instr i =>
    simp only [exec_withHost calls j s (decode_isEvent hd)]
    exact hosted_andThen calls j _ fun _ => rfl

theorem execRenderStep_withHost :
    execRenderStep (s.withHost calls j) = hosted calls j (execRenderStep s) := by
  by_cases h : s.cursor < s.frames.toNat
  · have h' : (s.withHost calls j).cursor < (s.withHost calls j).frames.toNat := h
    rw [execRenderStep_of_lt h, execRenderStep_of_lt h', State.renderFrame_withHost, hosted_next]
  · simp [execRenderStep, State.withHost, h]

theorem renderFrames_withHost (k : Nat) (s : State) :
    renderFrames k (s.withHost calls j) = hosted calls j (renderFrames k s) := by
  induction k generalizing s with
  | zero => rfl
  | succ k ih =>
    simp only [renderFrames, execRenderStep_withHost]
    exact hosted_andThen calls j _ ih

theorem runEvents_withHost (es : List Event) (s : State) :
    runEvents es (s.withHost calls j) = hosted calls j (runEvents es s) := by
  induction es generalizing s with
  | nil => exact renderFrames_withHost calls j _ s
  | cons e rest ih =>
    have hrender : renderTo e.offset.toNat (s.withHost calls j) = hosted calls j (renderTo e.offset.toNat s) :=
      renderFrames_withHost calls j _ s
    simp only [runEvents, hrender, hosted_andThen calls j _ (applyEvent_withHost calls j · e)]
    exact hosted_andThen calls j _ ih

end

/-! ### The port and the block -/

/-- What a block starts from: the port's view, the parameters, and the chip answers to come. -/
structure State.Alike (s t : State) : Prop where
  observation : s.observation = t.observation
  params : s.params = t.params
  cfgAnswers : s.cfgAnswers = t.cfgAnswers
  renderAnswers : s.renderAnswers = t.renderAnswers
  draws : s.draws = t.draws

namespace State.Alike

variable {s t : State} (h : s.Alike t)
include h

theorem fault : s.fault = t.fault := congrArg Observation.fault h.observation

/-- A refused block shows its `FAULT` and hides the index (R241). -/
theorem takeHostContract (j : Nat) : (s.takeHostContract j).Alike (t.takeHostContract j) :=
  { h with observation := congrArg (fun o => { o with fault := true }) h.observation }

/-- A block writes everything else that the port hides when it opens (R42). -/
theorem openBlock_eq (n : BitVec 32) (es : List Event) :
    s.openBlock n es = (t.openBlock n es).withHost s.calls s.faultIndex := by
  obtain ⟨hobs, hparams, hcfg, hrender, hdraws⟩ := h
  simp only [State.observation, Observation.mk.injEq] at hobs
  simp only [State.openBlock, State.withHost, hobs, hparams, hcfg, hrender, hdraws]

end State.Alike

theorem State.withHost_alike (s : State) (calls : List HostCall) (j : Nat) : (s.withHost calls j).Alike s :=
  ⟨rfl, rfl, rfl, rfl, rfl⟩

/-- A block answers alike states alike. -/
theorem execBlock_alike {s t s' : State} (h : s.Alike t) (n : BitVec 32) (es : List Event)
    (hs : execBlock n es s = .next s') : ∃ t', execBlock n es t = .next t' ∧ s'.Alike t' := by
  unfold execBlock at hs ⊢
  rw [h.fault] at hs
  cases hfault : t.fault with
  | true => simp [hfault] at hs
  | false =>
    simp only [hfault, Bool.false_eq_true, if_false] at hs ⊢
    cases hbeyond : firstBeyond n es with
    | some j =>
      simp only [hbeyond] at hs ⊢
      cases hs
      exact ⟨_, rfl, h.takeHostContract j⟩
    | none =>
      simp only [hbeyond] at hs ⊢
      split at hs
      · next hempty =>
        cases hs
        exact ⟨t, by simp [hempty], h⟩
      · next hempty =>
        rw [h.openBlock_eq, runEvents_withHost] at hs
        obtain ⟨t', ht', hnext⟩ := andThen_eq_next.1 hs
        cases hnext
        exact ⟨t', by simpa [hempty] using ht', t'.withHost_alike _ _⟩

/-- Settles O47: the five hypotheses are `State.Alike`, which `execBlock_alike` carries through the block. -/
theorem blockSeesObservationOnly : Obligations.BlockSeesObservationOnly := by
  intro n es s t s' hobs hparams hcfg hrender hdraws hs
  obtain ⟨t', ht', hobs', hparams', hcfg', hrender', hdraws'⟩ :=
    execBlock_alike ⟨hobs, hparams, hcfg, hrender, hdraws⟩ n es hs
  exact ⟨t', ht', hobs', hparams', hcfg', hrender', hdraws'⟩

end Sys2Proof.Machine

/-! # The state after power-on -/

namespace Sys2Proof.Machine

/-- The power-on clock is 2 MHz (R46). -/
theorem powerOn_clock : (⟨0x413E848000000000#64⟩ : Binary64) = Binary64.ofInt 2000000 := by decide +kernel

/-- The rate chosen for the reset state has a magnitude field from 1 to the largest finite one, so it is legal (D37). -/
theorem isPositive_sampleRate : Config.sampleRate.isPositive = true := by
  have hlt := Nat.mod_lt Config.sampleRateChoice (show 0 < 2047 * 2 ^ 52 - 1 by norm_num)
  exact Binary64.isPositive_ofFields (f := 1 + Config.sampleRateChoice % (2047 * 2 ^ 52 - 1)) (by omega) (by omega)

theorem reset_chan (k : Fin 3) : State.reset.chan k = Channel.powerOn := by
  fin_cases k <;> rfl

/-- Settles O51: the power-on note is 0, not -1, so every channel sounds (R332). -/
theorem resetRegisters : Obligations.ResetRegisters := by
  have hchan : ∀ k : Fin 3, State.reset.chan k = ⟨0, 0, 0, false, ⟨0#64⟩, ⟨0#64⟩, false, false, ⟨0#64⟩⟩ ∧
      State.reset.sounding k = true := by
    intro k
    rw [State.sounding, reset_chan]
    exact ⟨rfl, rfl⟩
  refine ⟨powerOn_clock, rfl, rfl, rfl, rfl, rfl, rfl, hchan, rfl, rfl, rfl, rfl, Config.cfgAnswer 0, rfl, ?_⟩
  rw [← powerOn_clock]
  rfl

/-- Settles O54: the reset state is a construction with a legal rate and no call pending. -/
theorem resetMeetsInvariants : Obligations.ResetMeetsInvariants :=
  ⟨.constructed isPositive_sampleRate (by simp) .., .constructed ..⟩

end Sys2Proof.Machine

/-! # Encoding and decoding are inverse

An instruction and a payload belong together (`Encodes`) when the instruction is well-formed and the encoder writes that
payload. Decoding answers exactly this relation (`decode_eq_instr_iff`): from the instruction's side row by row of the
opcode table, from the payload's side by the three shapes a complete MIDI message can have (`midi_shape`). -/

namespace Sys2Proof

/-- `i` is a well-formed event, and `p` is its payload. -/
def Encodes (i : Instr) (p : Payload) : Prop := i.wellFormed = true ∧ encode i = some p

/-! ### Data bytes and status bytes -/

theorem isDataByte_iff (b : Byte) : isDataByte b = true ↔ b.toNat < 0x80 := by
  simp [isDataByte, BitVec.msb_eq_false_iff_two_mul_lt]
  omega

@[simp] theorem dataAt_cons_zero (b : Byte) (rest : List Byte) : dataAt (b :: rest) 0 = dataValue b := rfl

@[simp] theorem dataAt_cons_succ (b : Byte) (rest : List Byte) (i : Nat) : dataAt (b :: rest) (i + 1) = dataAt rest i := rfl

/-- A byte with bit 7 set is the status byte of a message type from 8 up (R81, R82). -/
theorem exists_statusByte {b : Byte} (h : isDataByte b = false) : ∃ type c, 8 ≤ type.toNat ∧ b = statusByte type c := by
  have hb : ¬ b.toNat < 0x80 := by simp [← isDataByte_iff, h]
  have hlt : b.toNat < 256 := b.isLt
  refine ⟨BitVec.ofNat 4 (messageType b), lowNibble b, ?_, (statusByte_split b).symm⟩
  rw [BitVec.toNat_ofNat, messageType]
  omega

/-- The formats of the message types: three bytes, two bytes, system (R81, R85). -/
theorem messageType_format {type : BitVec 4} (h : 8 ≤ type.toNat) :
    type ∈ [0x8#4, 0x9#4, 0xA#4, 0xB#4, 0xE#4] ∨ type ∈ [0xC#4, 0xD#4] ∨ type = 0xF#4 := by
  revert type; decide

theorem lengthMatches_midi3 {type : BitVec 4} (h : type ∈ [0x8#4, 0x9#4, 0xA#4, 0xB#4, 0xE#4]) (c : BitVec 4)
    (data : List Byte) : lengthMatches (statusByte type c) data = (data.length == 2) := by
  simp only [List.mem_cons, List.not_mem_nil, or_false] at h
  obtain rfl | rfl | rfl | rfl | rfl := h <;> simp [lengthMatches]

theorem lengthMatches_midi2 {type : BitVec 4} (h : type ∈ [0xC#4, 0xD#4]) (c : BitVec 4) (data : List Byte) :
    lengthMatches (statusByte type c) data = (data.length == 1) := by
  simp only [List.mem_cons, List.not_mem_nil, or_false] at h
  obtain rfl | rfl := h <;> simp [lengthMatches]

/-- The length and data checks of a system message are those of its status (R84, R85). -/
theorem isSystemData_iff (s : BitVec 4) (data : List Byte) :
    isSystemData s data = true ↔
      lengthMatches (statusByte 0xF#4 s) data = true ∧ dataBytesOk (statusByte 0xF#4 s) data = true := by
  by_cases hs : s = 0#4
  · subst hs
    have hsysex : isSystemData 0#4 data = dataBytesOk (statusByte 0xF#4 0#4) data := rfl
    have hany : lengthMatches (statusByte 0xF#4 0#4) data = true := rfl
    simp [hsysex, hany]
  · have hb : statusByte 0xF#4 s ≠ 0xF0#8 := by revert s; decide
    have hfixed : systemDataLength s ≠ none := by revert s; decide
    obtain ⟨k, hk⟩ := Option.ne_none_iff_exists'.1 hfixed
    simp [isSystemData, lengthMatches, dataBytesOk, hb, hk]

/-! ### What a MIDI payload decodes to -/

/-- A MIDI payload decodes exactly when it passes the three checks of R84 and R85, and then by the opcode map. -/
theorem decode_midi_eq_instr {b0 : Byte} {data : List Byte} {i : Instr} :
    decode (.midi (b0 :: data)) = .instr i ↔
      isDataByte b0 = false ∧ lengthMatches b0 data = true ∧ dataBytesOk b0 data = true ∧ decodeMessage b0 data = i := by
  simp only [decode, decodeMidi]
  split_ifs <;> simp_all

/-- A MIDI payload is malformed exactly when it fails one of them. -/
theorem decode_midi_malformed (b0 : Byte) (data : List Byte) :
    (∃ why, decode (.midi (b0 :: data)) = .malformed why) ↔
      isDataByte b0 = true ∨ lengthMatches b0 data = false ∨ dataBytesOk b0 data = false := by
  simp only [decode, decodeMidi]
  split_ifs <;> simp_all

/-- A complete system message decodes by its status alone. -/
theorem decode_system {s : BitVec 4} {data : List Byte} (h : isSystemData s data = true) :
    decode (.midi (statusByte 0xF#4 s :: data)) = .instr (decodeMessage (statusByte 0xF#4 s) data) := by
  obtain ⟨hlen, hdata⟩ := (isSystemData_iff s data).1 h
  exact decode_midi_eq_instr.2 ⟨isDataByte_statusByte (by decide) s, hlen, hdata, rfl⟩

/-- The three shapes of a complete MIDI message (R81, R85). -/
theorem midi_shape {bytes : List Byte} {i : Instr} (h : decode (.midi bytes) = .instr i) :
    (∃ type ∈ [0x8#4, 0x9#4, 0xA#4, 0xB#4, 0xE#4], ∃ c d1 d2, .midi bytes = midi3 type c d1 d2) ∨
    (∃ type ∈ [0xC#4, 0xD#4], ∃ c d1, .midi bytes = midi2 type c d1) ∨
    ∃ s data, isSystemData s data = true ∧ bytes = statusByte 0xF#4 s :: data := by
  cases bytes with
  | nil => simp [decode, decodeMidi] at h
  | cons b0 data =>
    obtain ⟨hstatus, hlen, hdata, -⟩ := decode_midi_eq_instr.1 h
    obtain ⟨type, c, htype, rfl⟩ := exists_statusByte hstatus
    obtain htype | htype | rfl := messageType_format htype
    · rw [lengthMatches_midi3 htype, beq_iff_eq, List.length_eq_two] at hlen
      obtain ⟨x, y, rfl⟩ := hlen
      have hne : type ≠ 0xF#4 := by rintro rfl; simp at htype
      simp only [dataBytesOk_statusByte hne, List.all_cons, List.all_nil, Bool.and_true, Bool.and_eq_true] at hdata
      obtain ⟨hx, hy⟩ := hdata
      exact .inl ⟨type, htype, c, dataValue x, dataValue y, by simp [midi3, dataByte_dataValue, hx, hy]⟩
    · rw [lengthMatches_midi2 htype, beq_iff_eq, List.length_eq_one_iff] at hlen
      obtain ⟨x, rfl⟩ := hlen
      have hne : type ≠ 0xF#4 := by rintro rfl; simp at htype
      simp only [dataBytesOk_statusByte hne, List.all_cons, List.all_nil, Bool.and_true] at hdata
      exact .inr (.inl ⟨type, htype, c, dataValue x, by simp [midi2, dataByte_dataValue, hdata]⟩)
    · exact .inr (.inr ⟨c, data, (isSystemData_iff c data).2 ⟨hlen, hdata⟩, rfl⟩)

/-! ### The opcode map at a status byte, one row each (R86 to R88) -/

section
variable (c : BitVec 4) (data : List Byte)

@[simp] theorem decodeMessage_noteOff :
    decodeMessage (statusByte 0x8#4 c) data = .noteOff c (dataAt data 0) (dataAt data 1) := by
  simp [decodeMessage]

@[simp] theorem decodeMessage_noteOn :
    decodeMessage (statusByte 0x9#4 c) data =
      if dataAt data 1 = 0#7 then .noteOnVel0 c (dataAt data 0) else .noteOn c (dataAt data 0) (dataAt data 1) := by
  simp [decodeMessage]

@[simp] theorem decodeMessage_polyAftertouch :
    decodeMessage (statusByte 0xA#4 c) data = .polyAftertouch c (dataAt data 0) (dataAt data 1) := by
  simp [decodeMessage]

@[simp] theorem decodeMessage_controlChange :
    decodeMessage (statusByte 0xB#4 c) data = decodeController c (dataAt data 0) (dataAt data 1) := by
  simp [decodeMessage]

@[simp] theorem decodeMessage_programChange :
    decodeMessage (statusByte 0xC#4 c) data = .programChange c (dataAt data 0) := by
  simp [decodeMessage]

@[simp] theorem decodeMessage_channelPressure :
    decodeMessage (statusByte 0xD#4 c) data = .channelPressure c (dataAt data 0) := by
  simp [decodeMessage]

@[simp] theorem decodeMessage_pitchBend :
    decodeMessage (statusByte 0xE#4 c) data = .pitchBend c (dataAt data 0) (dataAt data 1) := by
  simp [decodeMessage]

@[simp] theorem decodeMessage_system (s : BitVec 4) :
    decodeMessage (statusByte 0xF#4 s) data = if s = 0xF#4 then .systemReset else .systemOther s data := by
  have hs : statusByte 0xF#4 s = 0xFF#8 ↔ s = 0xF#4 := by revert s; decide
  simp [decodeMessage, hs]

end

/-- A control change decodes by the controller map (R87). -/
theorem decode_controlChange (c : BitVec 4) (k : Nat) (v : BitVec 7) :
    decode (controlChange c k v) = .instr (decodeController c (BitVec.ofNat 7 k) v) := by
  simp [controlChange, decode_midi3]

theorem decode_pitchBend (c : BitVec 4) (lsb msb : BitVec 7) :
    decode (midi3 0xE#4 c lsb msb) = .instr (.pitchBend c lsb msb) := by
  simp [decode_midi3]

/-! ### From the instruction to the payload and back -/

/-- Every row of the opcode table: its payload decodes to it (R86, R87, R88, R90). -/
theorem decode_of_encodes {i : Instr} {p : Payload} (h : Encodes i p) : decode p = .instr i := by
  obtain ⟨hwf, henc⟩ := h
  cases i with
  | noteOff | noteOnVel0 | polyAftertouch | pitchBend =>
    cases henc
    simp [decode_midi3]
  | noteOn c n v =>
    cases henc
    have hv : v ≠ 0#7 := by simpa [Instr.wellFormed] using hwf
    simp [decode_midi3, hv]
  | ccModWheel | ccMainVolume | ccPan | ccGp1Noise | ccGp2EnvCoarse | ccGp3EnvFine | ccGp4EnvShape | ccAllSoundOff
  | ccResetControllers | ccAllNotesOff =>
    cases henc
    exact decode_controlChange _ _ _
  | ccOther c k v =>
    cases henc
    have hk : k.toNat ∉ mappedControllers := by simpa [Instr.wellFormed] using hwf
    simp [decode_midi3, decodeController_unmapped hk]
  | programChange | channelPressure =>
    cases henc
    simp [decode_midi2]
  | systemReset =>
    cases henc
    rfl
  | systemOther s data =>
    cases henc
    obtain ⟨hs, hdata⟩ : s ≠ 0xF#4 ∧ isSystemData s data = true := by simpa [Instr.wellFormed] using hwf
    simp [decode_system hdata, hs]
  | propClock | propMode | propNoisePeriod | propEnvPeriod | propEnvHold | propEnvAlternate | propEnvAttack
  | propEnvContinue | propTonePeriod | propLevel | propEnvOn | propToneOn | propNoiseOn =>
    cases henc
    rfl
  | propUnknown key chan value =>
    cases henc
    have hkey : key.toNat ∉ mappedKeys := by simpa [Instr.wellFormed] using hwf
    exact congrArg Decoded.instr (decodeProp_unmapped hkey)
  | block | renderStep | modTick | construct => cases henc

/-! ### From the payload to the instruction and back -/

theorem decodeController_encodes (c : BitVec 4) (k v : BitVec 7) :
    Encodes (decodeController c k v) (midi3 0xB#4 c k v) := by
  by_cases hk : k.toNat ∈ mappedControllers
  · obtain ⟨n, hn, rfl⟩ : ∃ n ∈ mappedControllers, k = BitVec.ofNat 7 n := ⟨_, hk, by simp⟩
    simp only [mappedControllers, List.mem_cons, List.not_mem_nil, or_false] at hn
    obtain rfl | rfl | rfl | rfl | rfl | rfl | rfl | rfl | rfl | rfl := hn <;> exact ⟨rfl, rfl⟩
  · rw [decodeController_unmapped hk]
    exact ⟨by simpa [Instr.wellFormed] using hk, rfl⟩

theorem decodeProp_encodes (key chan : Byte) (value : PropValue) :
    Encodes (decodeProp key chan value) (.prop key chan value) := by
  by_cases hkey : key.toNat ∈ mappedKeys
  · obtain ⟨n, hn, rfl⟩ : ∃ n ∈ mappedKeys, key = BitVec.ofNat 8 n := ⟨_, hkey, by simp⟩
    simp only [mappedKeys, List.mem_cons, List.not_mem_nil, or_false] at hn
    obtain rfl | rfl | rfl | rfl | rfl | rfl | rfl | rfl | rfl | rfl | rfl | rfl | rfl := hn <;> exact ⟨rfl, rfl⟩
  · rw [decodeProp_unmapped hkey]
    exact ⟨by simpa [Instr.wellFormed] using hkey, rfl⟩

theorem decodeMessage_midi3_encodes {type : BitVec 4} (h : type ∈ [0x8#4, 0x9#4, 0xA#4, 0xB#4, 0xE#4]) (c : BitVec 4)
    (d1 d2 : BitVec 7) :
    Encodes (decodeMessage (statusByte type c) [dataByte d1, dataByte d2]) (midi3 type c d1 d2) := by
  simp only [List.mem_cons, List.not_mem_nil, or_false] at h
  obtain rfl | rfl | rfl | rfl | rfl := h
  · simp [Encodes, Instr.wellFormed, encode]
  · by_cases hv : d2 = 0#7 <;> simp [Encodes, Instr.wellFormed, encode, hv]
  · simp [Encodes, Instr.wellFormed, encode]
  · simpa using decodeController_encodes c d1 d2
  · simp [Encodes, Instr.wellFormed, encode]

theorem decodeMessage_midi2_encodes {type : BitVec 4} (h : type ∈ [0xC#4, 0xD#4]) (c : BitVec 4) (d1 : BitVec 7) :
    Encodes (decodeMessage (statusByte type c) [dataByte d1]) (midi2 type c d1) := by
  simp only [List.mem_cons, List.not_mem_nil, or_false] at h
  obtain rfl | rfl := h <;> simp [Encodes, Instr.wellFormed, encode]

theorem decodeMessage_system_encodes {s : BitVec 4} {data : List Byte} (h : isSystemData s data = true) :
    Encodes (decodeMessage (statusByte 0xF#4 s) data) (.midi (statusByte 0xF#4 s :: data)) := by
  by_cases hs : s = 0xF#4
  · subst hs
    obtain ⟨rfl, -⟩ : data = [] ∧ data.all isDataByte = true := by simpa [isSystemData, systemDataLength] using h
    exact ⟨rfl, rfl⟩
  · simp [Encodes, Instr.wellFormed, encode, hs, h]

theorem encodes_of_decode {p : Payload} {i : Instr} (h : decode p = .instr i) : Encodes i p := by
  cases p with
  | prop key chan value =>
    cases h
    exact decodeProp_encodes key chan value
  | midi bytes =>
    obtain ⟨type, htype, c, d1, d2, hp⟩ | ⟨type, htype, c, d1, hp⟩ | ⟨s, data, hdata, rfl⟩ := midi_shape h
    · rw [hp, decode_midi3 htype] at h
      cases h
      exact hp ▸ decodeMessage_midi3_encodes htype c d1 d2
    · rw [hp, decode_midi2 htype] at h
      cases h
      exact hp ▸ decodeMessage_midi2_encodes htype c d1
    · rw [decode_system hdata] at h
      cases h
      exact decodeMessage_system_encodes hdata

/-- Settles O1: `decode_of_encodes`, row by row of the opcode table. -/
theorem decodeOfEncode : Obligations.DecodeOfEncode :=
  fun _ _ hwf henc => decode_of_encodes ⟨hwf, henc⟩

/-- Settles O2: `encodes_of_decode`, by the shape of the payload. -/
theorem encodeOfDecode : Obligations.EncodeOfDecode :=
  fun _ _ h => encodes_of_decode h

/-! ### Malformed channel messages -/

/-- The length of a channel message by the value of its status byte (R85). -/
theorem lengthMatches_of_lt {b0 : Byte} (h : b0.toNat < 0xF0) (data : List Byte) :
    lengthMatches b0 data = (data.length == if 0xC0 ≤ b0.toNat ∧ b0.toNat < 0xE0 then 1 else 2) := by
  unfold lengthMatches messageType
  split
  · rw [if_pos (by omega)]
  · rw [if_pos (by omega)]
  · omega
  · next hC hD _ =>
    rw [if_neg]
    intro hrange
    obtain h | h : b0.toNat / 16 = 0xC ∨ b0.toNat / 16 = 0xD := by omega
    exacts [hC h, hD h]

theorem dataBytesOk_of_lt {b0 : Byte} (h : b0.toNat < 0xF0) (data : List Byte) :
    dataBytesOk b0 data = data.all isDataByte := by
  have hb : b0 ≠ 0xF0#8 := by rintro rfl; simp at h
  rw [dataBytesOk, if_neg hb]

/-- Settles O4: the three checks of `decode_midi_malformed`, for a first byte below 0xF0. -/
theorem malformedChannelMessages : Obligations.MalformedChannelMessages := by
  intro b0 data hb
  have hdata : data.all isDataByte = false ↔ ∃ b ∈ data, 0x80 ≤ b.toNat := by
    simp [← Nat.not_lt, ← isDataByte_iff]
  rw [decode_midi_malformed, isDataByte_iff, lengthMatches_of_lt hb, dataBytesOk_of_lt hb, beq_eq_false_iff_ne, hdata]

/-- Settles O3: the decoder runs on each word; the property record decodes by its key, whatever its value. -/
theorem specWordsDecode : Obligations.SpecWordsDecode :=
  ⟨by decide, by decide, by decide, by decide, by decide, fun _ => rfl⟩

end Sys2Proof

/-! # The channel gate, totality, and the pseudo-instructions -/

namespace Sys2Proof.Machine

/-! ### The channel gate -/

/-- Every channel message passes the gate of R83, or has no effect at all (R160, R246). -/
theorem exec_ignored {i : Instr} {c : BitVec 4} (hi : midiChannel i = some c) (hc : 3 ≤ c.toNat) (s : State) :
    exec i s = .next s := by
  cases i with
  | noteOff | noteOnVel0 | noteOn | ccModWheel | ccMainVolume | ccPan | ccGp1Noise | ccGp2EnvCoarse | ccGp3EnvFine
  | ccGp4EnvShape | ccAllSoundOff | ccResetControllers | ccAllNotesOff | programChange | pitchBend =>
    cases hi
    exact onChannel_ignored hc s _
  | polyAftertouch | ccOther | channelPressure => rfl
  | _ => cases hi

@[simp] theorem State.chan_pushChannelReset (s : State) (c d : Fin 3) : (s.pushChannelReset c).chan d = s.chan d := rfl

/-- Settles O9: the gate is `exec_ignored`; System Reset writes every channel's note before its commands. -/
theorem channelGate : Obligations.ChannelGate := by
  refine ⟨fun i c s hi hc => exec_ignored hi hc s, fun s => ⟨_, rfl, fun k => ?_⟩⟩
  simp [Channel.systemReset]

/-! ### Every event completes -/

/-- Settles O12: an event's meaning is a next state outright, or behind a gate that always answers one. -/
theorem everyEventCompletes : Obligations.EveryEventCompletes := by
  intro i s hi
  cases i with
  | noteOff | noteOnVel0 | noteOn | ccModWheel | ccMainVolume | ccPan | ccGp1Noise | ccGp2EnvCoarse | ccGp3EnvFine
  | ccGp4EnvShape | ccAllSoundOff | ccResetControllers | ccAllNotesOff | programChange | pitchBend =>
    exact onChannel_total _ s _
  | propClock | propMode | propNoisePeriod | propEnvPeriod | propEnvHold | propEnvAlternate | propEnvAttack
  | propEnvContinue => exact onValue_total _ s _
  | propTonePeriod | propLevel | propEnvOn | propToneOn | propNoiseOn => exact onChannelValue_total _ _ s _
  | polyAftertouch | ccOther | channelPressure | systemOther | propUnknown | systemReset => exact ⟨_, rfl⟩
  | block | renderStep | modTick | construct => simp [Instr.isEvent] at hi

/-! ### Velocity 0 -/

theorem exec_noteOnVel0_asNoteOn {s : State} (h : s.params.vel0Policy = .asNoteOn) (c : BitVec 4) (n : BitVec 7) :
    exec (.noteOnVel0 c n) s = exec (.noteOn c n 0) s := by
  simp [exec, execNoteOnVel0, execNoteOn, h]

theorem exec_noteOnVel0_asNoteOff {s : State} (h : s.params.vel0Policy = .asNoteOff) (c : BitVec 4) (n v : BitVec 7) :
    exec (.noteOnVel0 c n) s = exec (.noteOff c n v) s := by
  simp [exec, execNoteOnVel0, execNoteOff, h]

/-- Settles O15: `exec_noteOnVel0_asNoteOn` and `exec_noteOnVel0_asNoteOff`. -/
theorem velocityZeroNoteOn : Obligations.VelocityZeroNoteOn := by
  intro c n s
  obtain ⟨t, ht⟩ := everyEventCompletes (.noteOnVel0 c n) s rfl
  exact ⟨t, ht, fun h => exec_noteOnVel0_asNoteOn h c n ▸ ht, fun h => exec_noteOnVel0_asNoteOff h c n 0 ▸ ht⟩

/-! ### The pseudo-instructions (R95) -/

/-- The two data bytes of a 14-bit value carry it (R84, D2). -/
theorem bendValue_split (v : BitVec 14) : bendValue (v.setWidth 7) ((v >>> 7).setWidth 7) = v.toNat := by
  have hv : v.toNat < 2 ^ 14 := v.isLt
  simp only [bendValue, BitVec.toNat_setWidth, BitVec.toNat_ushiftRight, Nat.shiftRight_eq_div_pow]
  omega

/-- The controller value of `VOLUME4` has the volume in its four high bits (R166). -/
theorem volume4_value (v4 : BitVec 4) : ((v4.setWidth 7 <<< 3) >>> 3).setWidth 4 = v4 := by
  revert v4; decide

/-- The packer sets bit 3, and `SHAPE_CC` carries the three bits below it (R171). -/
theorem packShape_value {shape : BitVec 4} (h : 8 ≤ shape.toNat) :
    packShape ((shape &&& 7).setWidth 7 <<< 4) = shape := by
  revert shape; decide

@[simp] theorem State.chan_pushLevel (s : State) (c d : Fin 3) : (s.pushLevel c).chan d = s.chan d := by
  rw [State.pushLevel_eq]; rfl

theorem bend14_carries (c : BitVec 4) (v : BitVec 14) :
    ∃ p lsb msb, (AsmLine.bend14 c v).payloads = [p] ∧ decode p = .instr (.pitchBend c lsb msb) ∧
      bendValue lsb msb = v.toNat :=
  ⟨_, _, _, rfl, decode_pitchBend c _ _, bendValue_split v⟩

theorem bendCentre_carries (c : BitVec 4) :
    ∃ p lsb msb, (AsmLine.bendCentre c).payloads = [p] ∧ decode p = .instr (.pitchBend c lsb msb) ∧
      bendValue lsb msb = 8192 :=
  ⟨_, _, _, rfl, decode_pitchBend c _ _, rfl⟩

theorem volume4_sets_volume (k : Fin 3) (v4 : BitVec 4) (s : State) :
    ∃ p i t, (AsmLine.volume4 (chanNo k) v4).payloads = [p] ∧ decode p = .instr i ∧ exec i s = .next t ∧
      (t.chan k).volume = v4 := by
  refine ⟨_, _, _, rfl, decode_controlChange _ 7 _, onChannel_chanNo k s _, ?_⟩
  rw [State.chan_pushLevel, State.chan_setChan_self]
  exact volume4_value v4

theorem shapeCc_sets_shape (k : Fin 3) {shape : BitVec 4} (s : State)
    (h : (AsmLine.shapeCc (chanNo k) shape).legal = true) :
    ∃ p i t, (AsmLine.shapeCc (chanNo k) shape).payloads = [p] ∧ decode p = .instr i ∧ exec i s = .next t ∧
      t.envShape = shape :=
  ⟨_, _, _, rfl, decode_controlChange _ 19 _, onChannel_chanNo k s _, packShape_value (of_decide_eq_true h)⟩

/-- The coarse event leaves the high part over the old low bits, and sends its correction (R168); the fine event then
completes the period and sends it as it is (R170, D15). -/
theorem envPerCc_sets_period (k : Fin 3) (p : BitVec 14) (s : State) :
    ∃ p1 p2 i1 i2 t u, (AsmLine.envPerCc (chanNo k) p).payloads = [p1, p2] ∧ decode p1 = .instr i1 ∧
      decode p2 = .instr i2 ∧ exec i1 s = .next t ∧ exec i2 t = .next u ∧ u.envPeriod.toNat = p.toNat ∧
      u.chipTrace = s.chipTrace ++
        [.envPer (envCorr s.params (p.toNat / 128 * 128 + s.envPeriod.toNat % 128)), .envPer p.toNat] := by
  have hp : p.toNat < 2 ^ 14 := p.isLt
  have hhigh : ((p >>> 7).setWidth 7).toNat = p.toNat / 128 := by
    simp only [BitVec.toNat_setWidth, BitVec.toNat_ushiftRight, Nat.shiftRight_eq_div_pow]
    omega
  have hlow : (p.setWidth 7).toNat = p.toNat % 128 := BitVec.toNat_setWidth ..
  have hcoarse : (mergeCoarse s.envPeriod ((p >>> 7).setWidth 7)).toNat =
      p.toNat / 128 * 128 + s.envPeriod.toNat % 128 := by
    rw [mergeCoarse_toNat, hhigh]
  have hfine : (mergeFine (mergeCoarse s.envPeriod ((p >>> 7).setWidth 7)) (p.setWidth 7)).toNat = p.toNat := by
    rw [mergeFine_toNat, hcoarse, hlow]
    omega
  refine ⟨_, _, _, _, _, _, rfl, decode_controlChange _ 17 _, decode_controlChange _ 18 _, onChannel_chanNo k s _,
    onChannel_chanNo k _ _, hfine, ?_⟩
  simp [hcoarse, hfine]

/-- Settles O60: one lemma for each pseudo-instruction. -/
theorem pseudoInstructions : Obligations.PseudoInstructions :=
  ⟨bend14_carries, bendCentre_carries, volume4_sets_volume, fun k _ s h => shapeCc_sets_shape k s h,
    envPerCc_sets_period, _, _, _, rfl, decode_controlChange 0 123 0, decode_controlChange 1 123 0,
    decode_controlChange 2 123 0⟩

end Sys2Proof.Machine

/-! # Binary64 values that rounding keeps

A dyadic rational of at most 53 significant bits is a binary64 value, so `roundField` answers its own field. Such values
enclose a quotient that is not one: as rounding keeps order, they enclose the rounded quotient too, and tell its `RHU`. -/

namespace Sys2Proof.Binary64

/-! ### Dyadic rationals -/

theorem unitsPerOne_pos : 0 < unitsPerOne := by unfold unitsPerOne; positivity

theorem log2_two_pow (j : Nat) : log2 (2 ^ j) = j := by
  obtain ⟨hle, hlt⟩ := log2_spec (Nat.two_pow_pos j)
  have := (Nat.pow_le_pow_iff_right (by omega)).1 hle
  have := (Nat.pow_lt_pow_iff_right (by omega)).1 hlt
  omega

/-- The magnitude field of a normal value, taken apart. -/
theorem fieldUnits_normal {p b : Nat} (hle : 2 ^ 52 ≤ p) (hlt : p < 2 ^ 53) :
    fieldUnits (p + b * 2 ^ 52) = p * 2 ^ b := by
  have hexp : (p + b * 2 ^ 52) / 2 ^ 52 = b + 1 := by omega
  have hfrac : (p + b * 2 ^ 52) % 2 ^ 52 = p - 2 ^ 52 := by omega
  rw [fieldUnits, hexp, hfrac, if_neg (by omega), Nat.sub_add_cancel hle, Nat.add_sub_cancel]

/-- Rounding a multiple to the nearest integer is exact. -/
theorem nearest_mul_right (p : Nat) {d : Nat} (hd : 0 < d) : nearest (p * d) d = p :=
  Nat.le_antisymm (nearest_le hd (by rw [Nat.mul_comm])) (le_nearest hd (by rw [Nat.mul_comm]))

section
variable {m j : Nat} (hm : m < 2 ^ 53) (hj : j ≤ 1022)
include hm

/-- `m`, shifted to 53 bits, is the significand. -/
theorem significand_bounds (hm0 : 0 < m) :
    log2 m ≤ 52 ∧ 2 ^ 52 ≤ m * 2 ^ (52 - log2 m) ∧ m * 2 ^ (52 - log2 m) < 2 ^ 53 := by
  obtain ⟨hle, hlt⟩ := log2_spec hm0
  have hL : log2 m ≤ 52 := by
    have := (Nat.pow_lt_pow_iff_right (a := 2) (by omega)).1 (hle.trans_lt hm)
    omega
  have hpow : ∀ i, 2 ^ i * 2 ^ (52 - log2 m) = 2 ^ (i + (52 - log2 m)) := fun i => (pow_add 2 i _).symm
  refine ⟨hL, ?_, ?_⟩
  · calc 2 ^ 52 = 2 ^ log2 m * 2 ^ (52 - log2 m) := by rw [hpow, Nat.add_sub_cancel' hL]
      _ ≤ _ := Nat.mul_le_mul_right _ hle
  · calc m * 2 ^ (52 - log2 m) < 2 ^ (log2 m + 1) * 2 ^ (52 - log2 m) :=
          Nat.mul_lt_mul_of_pos_right hlt (Nat.two_pow_pos _)
      _ = 2 ^ 53 := by rw [hpow, show log2 m + 1 + (52 - log2 m) = 53 by omega]

include hj

theorem roundField_dyadic (hm0 : 0 < m) :
    roundField m (2 ^ j) = m * 2 ^ (52 - log2 m) + (log2 m + 1022 - j) * 2 ^ 52 := by
  obtain ⟨hL, -, hlt⟩ := significand_bounds hm hm0
  have hblock : blockOf m (2 ^ j) = log2 m + 1022 - j := by
    rw [blockOf, log2_two_pow, if_pos]
    calc 2 ^ j * 2 ^ (log2 m - j) = 2 ^ log2 m * 2 ^ (j - log2 m) := by
          rw [← pow_add, ← pow_add, show j + (log2 m - j) = log2 m + (j - log2 m) by omega]
      _ ≤ m * 2 ^ (j - log2 m) := Nat.mul_le_mul_right _ (log2_spec hm0).1
  have hnearest : nearest (m * 2 ^ (1074 - (log2 m + 1022 - j))) (2 ^ j * 2 ^ (log2 m + 1022 - j - 1074)) =
      m * 2 ^ (52 - log2 m) := by
    rw [show log2 m + 1022 - j - 1074 = 0 by omega, show 1074 - (log2 m + 1022 - j) = 52 - log2 m + j by omega,
      pow_add, ← Nat.mul_assoc, pow_zero, Nat.mul_one]
    exact nearest_mul_right _ (Nat.two_pow_pos j)
  rw [roundField_eq hm0.ne', hblock, hnearest]
  exact Nat.min_eq_left (by omega)

theorem roundField_dyadic_lt : roundField m (2 ^ j) < 2047 * 2 ^ 52 := by
  rcases Nat.eq_zero_or_pos m with rfl | hm0
  · simp [roundField]
  · obtain ⟨hL, -, hlt⟩ := significand_bounds hm hm0
    rw [roundField_dyadic hm hj hm0]
    omega

/-- Rounding keeps the value `m / 2 ^ j`. -/
theorem fieldUnits_roundField_dyadic : fieldUnits (roundField m (2 ^ j)) * 2 ^ j = m * unitsPerOne := by
  rcases Nat.eq_zero_or_pos m with rfl | hm0
  · simp [roundField, fieldUnits]
  · obtain ⟨hL, hle, hlt⟩ := significand_bounds hm hm0
    rw [roundField_dyadic hm hj hm0, fieldUnits_normal hle hlt, Nat.mul_assoc, Nat.mul_assoc, ← pow_add, ← pow_add,
      unitsPerOne, show 52 - log2 m + (log2 m + 1022 - j + j) = 1074 by omega]

end

/-! ### Quotients of natural numbers -/

theorem fieldUnits_roundField_natCast {n : Nat} (hn : n < 2 ^ 53) : fieldUnits (roundField n 1) = n * unitsPerOne := by
  simpa using fieldUnits_roundField_dyadic (j := 0) hn (by omega)

/-- Both operands are exact, so the quotient is rounded once (R8). -/
theorem div_natCast {n d : Nat} (hn : n < 2 ^ 53) (hd : d < 2 ^ 53) (hd0 : 0 < d) :
    (ofInt n).div (ofInt d) = ofFields false (roundField (n * unitsPerOne) (d * unitsPerOne)) := by
  have hofInt (z : Nat) : ofInt z = ofFields false (roundField z 1) := rfl
  have hfn : roundField n 1 < 2047 * 2 ^ 52 := roundField_dyadic_lt (j := 0) hn (by omega)
  have hfd : roundField d 1 < 2047 * 2 ^ 52 := roundField_dyadic_lt (j := 0) hd (by omega)
  have hun := fieldUnits_roundField_natCast hn
  have hud := fieldUnits_roundField_natCast hd
  have hz : roundField d 1 ≠ 0 := by
    intro h
    have : 0 < d * unitsPerOne := Nat.mul_pos hd0 unitsPerOne_pos
    rw [h, show fieldUnits 0 = 0 from rfl] at hud
    omega
  rw [hofInt, hofInt]
  simp [div, isNaN_ofFields hfn, isNaN_ofFields hfd, isInf_ofFields hfn, isInf_ofFields hfd, isZero_ofFields hfd, hz,
    isNeg_ofFields hfn, isNeg_ofFields hfd, units_ofFields hfn, units_ofFields hfd, hun, hud, roundRatio]

/-- A value from `k - 1/2` to below `k + 1/2` has `RHU` `k`. -/
theorem rhu_ofFields {f k : Nat} (hf : f < 2047 * 2 ^ 52) (hle : 2 * k * unitsPerOne ≤ 2 * fieldUnits f + unitsPerOne)
    (hlt : 2 * fieldUnits f < (2 * k + 1) * unitsPerOne) : (ofFields false f).rhu = some (k : Int) := by
  have hdiv : (2 * fieldUnits f + unitsPerOne) / (2 * unitsPerOne) = k :=
    Nat.div_eq_of_lt_le (by linarith) (by linarith)
  rw [rhu, isFinite_ofFields hf, signedUnits_ofFields hf, if_pos rfl, ← hdiv]
  rfl

/-- `RHU(fl(n / 127))` is the integer form `k`: `n / 127` lies between `k - 1/2` and `k + 127/256`, which are both binary64
values. -/
theorem rhu_div_127 {n : Nat} (hn : n < 2 ^ 44) :
    ((ofInt n).div (ofInt 127)).rhu = some (((2 * n + 127) / 254 : Nat) : Int) := by
  have hU : 0 < 127 * unitsPerOne := Nat.mul_pos (by omega) unitsPerOne_pos
  obtain ⟨k, hk⟩ : ∃ k, k = (2 * n + 127) / 254 := ⟨_, rfl⟩
  have hlower : roundField (2 * k - 1) (2 ^ 1) ≤ roundField (n * unitsPerOne) (127 * unitsPerOne) :=
    roundField_mono (by omega) hU <|
      calc (2 * k - 1) * (127 * unitsPerOne) = (2 * k - 1) * 127 * unitsPerOne := by ring
        _ ≤ n * 2 * unitsPerOne := Nat.mul_le_mul_right _ (by omega)
        _ = _ := by ring
  have hupper : roundField (n * unitsPerOne) (127 * unitsPerOne) ≤ roundField (256 * k + 127) (2 ^ 8) :=
    roundField_mono hU (by omega) <|
      calc n * unitsPerOne * 2 ^ 8 = n * 2 ^ 8 * unitsPerOne := by ring
        _ ≤ (256 * k + 127) * 127 * unitsPerOne := Nat.mul_le_mul_right _ (by omega)
        _ = _ := by ring
  have hlowerUnits := fieldUnits_roundField_dyadic (m := 2 * k - 1) (j := 1) (by omega) (by omega)
  have hupperUnits := fieldUnits_roundField_dyadic (m := 256 * k + 127) (j := 8) (by omega) (by omega)
  have hfinite := roundField_dyadic_lt (m := 256 * k + 127) (j := 8) (by omega) (by omega)
  have := fieldUnits_mono hlower
  have := fieldUnits_mono hupper
  rw [← hk]
  refine (congrArg rhu (div_natCast (d := 127) (by omega) (by omega) (by omega))).trans
    (rhu_ofFields (hupper.trans_lt hfinite) ?_ ?_)
  · have : 2 * k * unitsPerOne ≤ (2 * k - 1 + 1) * unitsPerOne := Nat.mul_le_mul_right _ (by omega)
    linarith
  · have := unitsPerOne_pos
    linarith

end Sys2Proof.Binary64

/-! # Note events -/

namespace Sys2Proof.Machine

/-! ### The level (R121) -/

theorem volume_mul_velocity_le (vol : BitVec 4) (vel : BitVec 7) : vol.toNat * vel.toNat ≤ 15 * 127 :=
  Nat.mul_le_mul (Nat.le_of_lt_succ vol.isLt) (Nat.le_of_lt_succ vel.isLt)

theorem level_eq (vol : BitVec 4) (vel : BitVec 7) : level vol vel = (2 * vol.toNat * vel.toNat + 127) / 254 := by
  have hle := volume_mul_velocity_le vol vel
  have h := Binary64.rhu_div_127 (n := vol.toNat * vel.toNat) (by omega)
  rw [Nat.cast_mul] at h
  rw [level, h, Nat.mul_assoc]
  rfl

/-- Settles O19: `level_eq`; both bounds are those of the integer form. -/
theorem levelIntegerForm : Obligations.LevelIntegerForm := by
  intro vol vel
  have hle := volume_mul_velocity_le vol vel
  refine ⟨level_eq vol vel, ?_, ?_⟩
  · rw [level_eq, Nat.mul_assoc]; omega
  · rw [level_eq, show (127 : BitVec 7).toNat = 127 from rfl]; omega

/-! ### What the note operations do to the state -/

section
variable (s : State) (c : Fin 3)

/-- All that silencing a channel changes (R123, R128). -/
theorem State.emit_vol_setChan_note :
    (s.emit (.vol c 0)).setChan c { s.chan c with note := -1 } =
      { s with ch := s.ch.set c { s.chan c with note := -1 }, chipTrace := s.chipTrace ++ [.vol c 0] } := rfl

theorem State.sounding_iff : s.sounding c = true ↔ (s.chan c).note ≠ -1 := by
  simp [State.sounding, Channel.sounding]

/-- All that a started note changes: its channel entry, and the trace; the tone is the new entry's (R124, D11). -/
theorem State.startNote_eq (n v : BitVec 7) :
    s.startNote c n v =
      { s with
        ch := s.ch.set c { s.chan c with note := n.toNat, vel := v }
        chipTrace := s.chipTrace ++
          [.vol c (level (s.chan c).volume v), .shape s.envShape,
            .tone c ({ s.chan c with note := n.toNat, vel := v }.period s.params s.clockHz s.sampleCtr)] } := by
  simp only [State.startNote, State.pushTone, State.period, State.chan_emit, State.chan_setChan_self]
  simp [State.emit, State.setChan]

/-- The two policies as one condition (R124, R125). -/
theorem State.noteOn_eq (n v : BitVec 7) :
    s.noteOn c n v =
      if s.params.noteOnPolicy = .rejectWhileSounding ∧ (s.chan c).note ≠ -1 then s else s.startNote c n v := by
  unfold State.noteOn
  split
  · next h => simp [h]
  · next h => simp [h, State.sounding_iff]

end

/-- Settles O13: the two branches of `noteOff`. -/
theorem noteOffResult : Obligations.NoteOffResult := by
  intro k n v s
  refine (onChannel_chanNo k s _).trans (congrArg _ ?_)
  unfold State.noteOff
  rw [State.emit_vol_setChan_note]

/-- Settles O14: `State.noteOn_eq`, and `State.startNote_eq` where the note is not rejected. -/
theorem noteOnResult : Obligations.NoteOnResult := by
  intro k n v s
  refine (onChannel_chanNo k s _).trans (congrArg _ ?_)
  rw [State.noteOn_eq, State.startNote_eq]

/-- Settles O17: both controllers are `Silence` on a live channel. -/
theorem allOffResult : Obligations.AllOffResult := by
  intro k v s t
  have hsilence : s.silence k = t := by
    simp only [State.silence, State.sounding_iff, State.emit_vol_setChan_note, ite_not, t]
  exact ⟨hsilence ▸ onChannel_chanNo k s _, hsilence ▸ onChannel_chanNo k s _⟩

/-! ### The bits of a program number (R127) -/

theorem programTone_eq (p : BitVec 7) : programTone p = decide (p.toNat % 2 = 0) := by
  revert p; decide

theorem programNoise_eq (p : BitVec 7) : programNoise p = decide (p.toNat % 4 = 1 ∨ p.toNat % 4 = 2) := by
  revert p; decide

theorem programEnvOn_eq (p : BitVec 7) : programEnvOn p = decide (4 ≤ p.toNat) := rfl

/-- Settles O16: the bits of the program number as the statement writes them, and the three commands in order. -/
theorem programChangeResult : Obligations.ProgramChangeResult := by
  intro k p s tone noise env
  refine (onChannel_chanNo k s _).trans (congrArg _ ?_)
  unfold State.programChange
  rw [programTone_eq, programNoise_eq, programEnvOn_eq]
  simp [State.emit, State.setChan, tone, noise, env]

/-! ### System Reset (R129) -/

theorem half_eq : half = ⟨0x3FE0000000000000#64⟩ := by decide +kernel

/-- The commands of one channel's reset, appended to the trace. -/
theorem State.pushChannelReset_eq (s : State) (c : Fin 3) :
    s.pushChannelReset c =
      { s with chipTrace := s.chipTrace ++
          [.vol c 0, .mixer c true false, .envOn c false, .pan c ⟨0x3FE0000000000000#64⟩ .equalPower] } := by
  simp [State.pushChannelReset, State.emit, half_eq]

/-- Settles O18: the registers are those of `resetRegisters`, the trace that of `State.pushChannelReset_eq` for each channel. -/
theorem systemResetResult : Obligations.SystemResetResult := by
  intro s
  refine ⟨_, rfl, fun k => ?_, ?_⟩
  · simp only [State.chan_emit, State.chan_pushChannelReset, State.chan_resetRegisters, Channel.systemReset, half_eq]
    rfl
  · simp [State.pushChannelReset_eq, State.emit, State.resetRegisters]

end Sys2Proof.Machine

/-! # Controllers

A controller writes one register and sends at most a few commands. On a live channel its meaning is the function behind the
gate (`onChannel_chanNo`), so each statement is that function's whole effect, with the register's value as R161 to R171
write it. -/

namespace Sys2Proof.Machine

/-! ### What the channel operations do to the state -/

section
variable (s : State) (c : Fin 3) (x : Channel)

/-- All that a written channel entry with a tone update changes: the tone is the new entry's (R205, D11). -/
theorem State.setChan_toneUpdate_eq :
    (s.setChan c x).toneUpdate c =
      { s with
        ch := s.ch.set c x
        chipTrace := s.chipTrace ++
          if x.note = -1 then [] else [.tone c (x.period s.params s.clockHz s.sampleCtr)] } := by
  simp only [State.toneUpdate_eq, State.sounding_iff, State.period, State.chan_setChan_self, ite_not]
  rfl

/-- All that a written channel entry with a level push changes (R122). -/
theorem State.setChan_pushLevel_eq :
    (s.setChan c x).pushLevel c =
      { s with
        ch := s.ch.set c x
        chipTrace := s.chipTrace ++ if x.note = -1 then [] else [.vol c (level x.volume x.vel)] } := by
  simp only [State.pushLevel_eq, State.sounding_iff, State.chan_setChan_self, ite_not]
  rfl

/-- Both pushes of a sounding channel: the tone, then the level (R161, D40). -/
theorem State.pushTone_pushLevel_eq (h : s.sounding c = true) :
    (s.pushTone c).pushLevel c =
      { s with chipTrace := s.chipTrace ++
          [.tone c (s.period c), .vol c (level (s.chan c).volume (s.chan c).vel)] } := by
  have hsounding : (s.pushTone c).sounding c = true := h
  rw [State.pushLevel_sounding hsounding]
  simp [State.pushTone, State.emit, State.chan]

end

/-! ### Channel controllers -/

/-- Settles O20: a silent channel keeps the state, a sounding one sends what `State.pushTone_pushLevel_eq` says. -/
theorem resetControllersResult : Obligations.ResetControllersResult := by
  intro k v s
  refine (onChannel_chanNo k s _).trans (congrArg _ ?_)
  by_cases hnote : (s.chan k).note = -1
  · rw [if_pos hnote, if_neg (by simp [State.sounding_iff, hnote])]
  · have hsounding := (s.sounding_iff k).2 hnote
    rw [if_neg hnote, if_pos hsounding, State.pushTone_pushLevel_eq s k hsounding]

/-- Settles O21: the depth is `wheelDepth`, with its factor as the bit pattern of 0.5. -/
theorem modWheelResult : Obligations.ModWheelResult := by
  intro k v s x
  refine (onChannel_chanNo k s _).trans (congrArg _ ?_)
  rw [State.setChan_toneUpdate_eq, wheelDepth, half_eq]

/-- `max(0, v - 1)` by cases: the values 0 and 1 both give 0 (R165). -/
theorem panPosition_eq (v : BitVec 7) :
    panPosition v =
      (Binary64.ofInt (if v.toNat = 0 then 0 else (v.toNat : Int) - 1)).div (Binary64.ofInt 126) := by
  have hmax : max 0 ((v.toNat : Int) - 1) = if v.toNat = 0 then 0 else (v.toNat : Int) - 1 := by
    split <;> omega
  rw [panPosition, hmax]

/-- Settles O22: the stored and the sent pan are both `panPosition`. -/
theorem panResult : Obligations.PanResult := by
  intro k v s pan
  refine (onChannel_chanNo k s _).trans (congrArg _ ?_)
  rw [panPosition_eq]
  rfl

/-- The volume of a controller value: its four high bits (R166). -/
theorem volume_of_controller (v : BitVec 7) : (v >>> 3).setWidth 4 = BitVec.ofNat 4 (v.toNat / 8) := by
  apply BitVec.eq_of_toNat_eq
  simp [Nat.shiftRight_eq_div_pow]

/-- Settles O23: the volume is `volume_of_controller`; the level is that of the new entry. -/
theorem mainVolumeResult : Obligations.MainVolumeResult := by
  intro k v s x
  refine (onChannel_chanNo k s _).trans (congrArg _ ?_)
  rw [State.setChan_pushLevel_eq, volume_of_controller]

/-! ### Global controllers -/

/-- Settles O24: `v >> 2` is the quotient by 4, in the register and in the command. -/
theorem noiseControllerResult : Obligations.NoiseControllerResult := by
  intro k v s
  have hshift : (v >>> 2).toNat = v.toNat / 4 := by
    rw [BitVec.toNat_ushiftRight, Nat.shiftRight_eq_div_pow]
  refine (onChannel_chanNo k s _).trans (congrArg _ ?_)
  rw [hshift]
  rfl

/-- The coarse merge in arithmetic: bits 6 to 0 kept, the value above them (R168). -/
theorem mergeCoarse_eq (period : BitVec 16) (v : BitVec 7) :
    mergeCoarse period v = BitVec.ofNat 16 (v.toNat * 128 + period.toNat % 128) := by
  rw [← mergeCoarse_toNat, BitVec.ofNat_toNat, BitVec.setWidth_eq]

/-- The fine merge in arithmetic: bits 15 to 7 kept, the value below them (R170). -/
theorem mergeFine_eq (period : BitVec 16) (v : BitVec 7) :
    mergeFine period v = BitVec.ofNat 16 (period.toNat / 128 * 128 + v.toNat) := by
  rw [← mergeFine_toNat, BitVec.ofNat_toNat, BitVec.setWidth_eq]

/-- Settles O25: the register is `mergeCoarse_eq`, the value corrected is `mergeCoarse_toNat`. -/
theorem envelopeCoarseResult : Obligations.EnvelopeCoarseResult := by
  intro k v s p
  refine (onChannel_chanNo k s _).trans (congrArg _ ?_)
  rw [mergeCoarse_toNat, mergeCoarse_eq]
  rfl

/-- Settles O26: the register is `mergeFine_eq`, the value sent is `mergeFine_toNat`. -/
theorem envelopeFineResult : Obligations.EnvelopeFineResult := by
  intro k v s p
  refine (onChannel_chanNo k s _).trans (congrArg _ ?_)
  rw [mergeFine_toNat, mergeFine_eq]
  rfl

/-- The packer's shape: three bits of the value below `CONTINUE` (R171, R27). -/
theorem packShape_eq (v : BitVec 7) : packShape v = BitVec.ofNat 4 (v.toNat / 16 + 8) := by
  revert v; decide

/-- Settles O27: the stored and the sent shape are both `packShape_eq`. -/
theorem envelopeShapeResult : Obligations.EnvelopeShapeResult := by
  intro k v s shape
  refine (onChannel_chanNo k s _).trans (congrArg _ ?_)
  rw [packShape_eq]
  rfl

/-! ### Coarse and fine together (R343) -/

/-- Neither merge leaves anything of the old period where the other has written, or in bits 15 and 14. -/
theorem mergeFine_mergeCoarse_toNat (period : BitVec 16) (a b : BitVec 7) :
    (mergeFine (mergeCoarse period a) b).toNat = a.toNat * 128 + b.toNat := by
  rw [mergeFine_toNat, mergeCoarse_toNat]
  omega

theorem mergeCoarse_mergeFine_toNat (period : BitVec 16) (a b : BitVec 7) :
    (mergeCoarse (mergeFine period b) a).toNat = a.toNat * 128 + b.toNat := by
  have hb : b.toNat < 128 := b.isLt
  rw [mergeCoarse_toNat, mergeFine_toNat]
  omega

/-- Settles O28: in each order the second event completes the period, and its command is the last of the trace. -/
theorem coarseFineOrder : Obligations.CoarseFineOrder := by
  intro j k a b s p
  refine ⟨⟨_, _, onChannel_chanNo j s _, onChannel_chanNo k _ _, mergeFine_mergeCoarse_toNat s.envPeriod a b, ?_⟩,
    ⟨_, _, onChannel_chanNo k s _, onChannel_chanNo j _ _, mergeCoarse_mergeFine_toNat s.envPeriod a b, ?_⟩⟩
  · simp [mergeFine_mergeCoarse_toNat, p]
  · simp [mergeCoarse_mergeFine_toNat, p]

/-! ### The envelope correction (R169) -/

/-- Where the floor is no integer from `p` up, the result is `p` and a free excess (log entry 10). -/
theorem le_envCorr (params : Params) (p : Nat) : p ≤ envCorr params p := by
  unfold envCorr
  split
  · split
    · omega
    · exact Nat.le_add_right _ _
  · exact Nat.le_add_right _ _

/-- The correction reads the library alone. -/
theorem envCorr_congr {params params' : Params} (h : params.mathLibrary = params'.mathLibrary) :
    envCorr params = envCorr params' := by
  funext p
  simp only [envCorr, envCorrReal, fExp, h]

/-- Settles O29: the bound is `le_envCorr`; the policies do not matter, so the table is computed for one choice of them. -/
theorem envelopeCorrectionTable : Obligations.EnvelopeCorrectionTable := by
  refine ⟨le_envCorr, fun a b => ?_⟩
  rw [envCorr_congr (params := ⟨a, b, .reference⟩) (params' := ⟨.retrigger, .asNoteOff, .reference⟩) rfl]
  decide +kernel

end Sys2Proof.Machine

/-! # Pitch and the LFO

A period depends on the counter through the LFO alone, and the LFO through the phase. A depth of zero leaves no more of the
LFO than the sign of a zero, which the subtraction of `REF_SEMITONE` takes away. -/

namespace Sys2Proof.Binary64

theorem isFinite_of_le {x y : Binary64} (h : le x y = true) : x.isFinite = true ∧ y.isFinite = true := by
  simp only [le, Bool.and_eq_true] at h
  exact h.1

/-- Adding a zero loses at most the sign of a zero. -/
theorem add_zero_cases (x : Binary64) :
    (∃ y, ∀ neg, x.add (zero neg) = y) ∨ ∀ neg, ∃ neg', x.add (zero neg) = zero neg' := by
  have hlt : 0 < 2047 * 2 ^ 52 := by norm_num
  have hnan (neg : Bool) : (zero neg).isNaN = false := isNaN_ofFields hlt
  have hinf (neg : Bool) : (zero neg).isInf = false := isInf_ofFields hlt
  have hunits (neg : Bool) : (zero neg).signedUnits = 0 := by
    rw [zero, signedUnits_ofFields hlt]; cases neg <;> rfl
  by_cases hx : x.isNaN = true
  · exact .inl ⟨nan, fun neg => by simp [add, hx]⟩
  by_cases hxinf : x.isInf = true
  · exact .inl ⟨x, fun neg => by simp [add, hx, hnan, hxinf, hinf]⟩
  by_cases hs : x.signedUnits = 0
  · exact .inr fun neg => ⟨x.isNeg && (zero neg).isNeg, by simp [add, hx, hnan, hxinf, hinf, hs, hunits]⟩
  · exact .inl ⟨roundRatio (x.signedUnits < 0) x.signedUnits.natAbs unitsPerOne, fun neg => by
      simp [add, hx, hnan, hxinf, hinf, hs, hunits]⟩

/-- A positive finite value divided by 3520 has an `RHU`, which is not negative. -/
theorem exists_rhu_div_3520 {x : Binary64} (h : x.isPositive = true) :
    ∃ k : Nat, (x.div (ofInt 3520)).rhu = some (k : Int) := by
  obtain ⟨⟨hfin, hneg⟩, -⟩ : (x.isFinite = true ∧ x.isNeg = false) ∧ x.isZero = false := by
    simpa [isPositive] using h
  have hdivisor : ofInt 3520 = ofFields false (roundField 3520 1) := rfl
  have hg : roundField 3520 1 < 2047 * 2 ^ 52 := roundField_dyadic_lt (j := 0) (by norm_num) (by omega)
  have hg0 : 0 < fieldUnits (roundField 3520 1) := by decide +kernel
  have hmax : roundField (fieldUnits (2047 * 2 ^ 52 - 1)) (fieldUnits (roundField 3520 1)) < 2047 * 2 ^ 52 := by
    decide +kernel
  obtain ⟨f, hf, hx⟩ := exists_ofFields hfin
  obtain ⟨q, hq, hle⟩ := div_ofFields (neg := false) (show f ≤ 2047 * 2 ^ 52 - 1 by omega) (by norm_num) hg hg0
  have hlt : q < 2047 * 2 ^ 52 := hle.trans_lt hmax
  refine ⟨(2 * fieldUnits q + unitsPerOne) / (2 * unitsPerOne), ?_⟩
  rw [hx, hneg, hdivisor, hq, rhu, isFinite_ofFields hlt, signedUnits_ofFields hlt, if_pos rfl]
  rfl

end Sys2Proof.Binary64

namespace Sys2Proof.Machine

/-! ### The phase and the LFO -/

theorem phase_eq_extractLsb' (ctr : BitVec 32) : phase ctr = (ctr.extractLsb' 0 13).toNat := by
  simp [phase, Config.lfoPeriod]

/-- 8192 divides 2^32, so the phase goes on across the counter's wrap (R209). -/
theorem phase_add_lfoPeriod (ctr : BitVec 32) : phase (ctr + 8192) = phase ctr := by
  have h8192 : (8192 : BitVec 32).toNat = 8192 := rfl
  simp only [phase, Config.lfoPeriod, BitVec.toNat_add, h8192]
  omega

theorem lfo_range (p : Params) (ctr : BitVec 32) :
    Binary64.le (Binary64.ofInt (-1)) (lfo p ctr) = true ∧ Binary64.le (lfo p ctr) (Binary64.ofInt 1) = true := by
  unfold lfo fSin
  exact le_sineRange _

/-- Where the reference sine and the model's choice for another library agree, they are the sine of every library. -/
theorem fSin_of_agree {x y : Binary64} (href : Reference.sin x = some y) (hother : otherSin x = y) (p : Params) :
    fSin p x = sineRange y := by
  unfold fSin
  cases p.mathLibrary with
  | reference => rw [href]; rfl
  | other => rw [hother]

theorem lfo_quarter (p : Params) {ctr : BitVec 32} (h : phase ctr = 2048) : lfo p ctr = Binary64.ofInt 1 := by
  have href : Reference.sin (lfoArgument 2048) = some (Binary64.ofInt 1) := by decide +kernel
  have hother : otherSin (lfoArgument 2048) = Binary64.ofInt 1 := if_pos rfl
  rw [lfo, h, fSin_of_agree href hother]
  decide +kernel

theorem lfo_threeQuarters (p : Params) {ctr : BitVec 32} (h : phase ctr = 6144) : lfo p ctr = Binary64.ofInt (-1) := by
  have href : Reference.sin (lfoArgument 6144) = some (Binary64.ofInt (-1)) := by decide +kernel
  have hne : lfoArgument 6144 ≠ lfoArgument Config.lfoQuarter := by decide +kernel
  have hother : otherSin (lfoArgument 6144) = Binary64.ofInt (-1) := (if_neg hne).trans (if_pos rfl)
  rw [lfo, h, fSin_of_agree href hother]
  decide +kernel

/-! ### The period -/

section
variable (x : Channel) (p : Params) (clockHz : Binary64) {ctr ctr' : BitVec 32}

/-- The counter enters a period through the phase alone (R201 to R203). -/
theorem Channel.period_congr_phase (h : phase ctr = phase ctr') : x.period p clockHz ctr = x.period p clockHz ctr' := by
  simp only [Channel.period, semitone, lfo, h]

/-- A period reads the library of the parameters alone. -/
theorem Channel.period_congr_library {p p' : Params} (h : p.mathLibrary = p'.mathLibrary) :
    x.period p clockHz ctr = x.period p' clockHz ctr := by
  have hsin : fSin p = fSin p' := by
    funext y
    unfold fSin
    rw [h]
  have hpow : fPow p = fPow p' := by
    funext y z
    unfold fPow
    rw [h]
  simp only [Channel.period, periodQuotient, semitone, lfo, hsin, hpow]

/-- At `REF_SEMITONE` the power is 1, and the period is that of the reference frequency (R203, G11). -/
theorem periodQuotient_refSemitone : periodQuotient p clockHz (Binary64.ofInt 45) = clockHz.div (Binary64.ofInt 3520) := by
  have hzero : ((Binary64.ofInt 45).sub (Binary64.ofInt Config.refSemitone)).isZero = true := by decide +kernel
  have hone : (Binary64.ofInt (Config.prescale * Config.refHz)).mul (Binary64.ofInt 1) = Binary64.ofInt 3520 := by
    decide +kernel
  rw [periodQuotient, fPow_of_isZero p _ hzero, hone]

theorem roundPeriod_of_rhu {quotient : Binary64} {k : Nat} (h : quotient.rhu = some (k : Int)) :
    roundPeriod quotient = k := by
  simp [roundPeriod, h]

theorem rhu_of_refSemitone {x : Channel} {p : Params} {clockHz : Binary64} (hclock : clockHz.isPositive = true)
    (hsemi : semitone p x ctr = Binary64.ofInt 45) :
    (clockHz.div (Binary64.ofInt 3520)).rhu = some (x.period p clockHz ctr : Int) := by
  obtain ⟨k, hk⟩ := Binary64.exists_rhu_div_3520 hclock
  rw [Channel.period, hsemi, periodQuotient_refSemitone, roundPeriod_of_rhu hk, hk]

/-- The difference to `REF_SEMITONE` does not see the sign of a zero. -/
theorem add_zero_sub_refSemitone (y : Binary64) (neg neg' : Bool) :
    (y.add (Binary64.zero neg)).sub (Binary64.ofInt Config.refSemitone) =
      (y.add (Binary64.zero neg')).sub (Binary64.ofInt Config.refSemitone) := by
  have hsub : ∀ neg, (Binary64.zero neg).sub (Binary64.ofInt Config.refSemitone) = Binary64.ofInt (-45) := by
    decide +kernel
  rcases Binary64.add_zero_cases y with ⟨z, hz⟩ | hz
  · rw [hz, hz]
  · obtain ⟨a, ha⟩ := hz neg
    obtain ⟨b, hb⟩ := hz neg'
    rw [ha, hb, hsub, hsub]

/-- The LFO is finite, so a zero depth makes its term a zero, whose sign the period does not see (R208). -/
theorem Channel.period_of_zero_depth (h : x.depth.isZero = true) :
    x.period p clockHz ctr = x.period p clockHz ctr' := by
  have hterm (ctr : BitVec 32) : ∃ neg, x.depth.mul (lfo p ctr) = Binary64.zero neg :=
    Binary64.mul_of_isZero h (Binary64.isFinite_of_le (lfo_range p ctr).2).1
  obtain ⟨neg, hneg⟩ := hterm ctr
  obtain ⟨neg', hneg'⟩ := hterm ctr'
  rw [Channel.period, Channel.period, periodQuotient, periodQuotient, semitone, semitone, hneg, hneg',
    add_zero_sub_refSemitone _ neg neg']

end

/-- Settles O31: the phase's period, the LFO's range and peaks, and the period at semitone 45 and at depth 0. -/
theorem periodRepeats : Obligations.PeriodRepeats :=
  ⟨phase_eq_extractLsb', fun x p clockHz ctr => x.period_congr_phase p clockHz (phase_add_lfoPeriod ctr), lfo_range,
    fun p _ h => lfo_quarter p h, fun p _ h => lfo_threeQuarters p h,
    fun _ _ _ _ hclock hsemi => rhu_of_refSemitone hclock hsemi,
    fun x p clockHz _ _ h => x.period_of_zero_depth p clockHz h⟩

/-- Settles O32: the policies do not matter, so the values are computed for one choice of them. -/
theorem referencePeriods : Obligations.ReferencePeriods := by
  intro a b
  simp only [Channel.period_congr_library (p := ⟨a, b, .reference⟩) (p' := ⟨.retrigger, .asNoteOn, .reference⟩) _ _ rfl]
  decide +kernel

/-! ### Pitch bend and the modulation step -/

/-- The bend with its 14-bit value written out (R206). -/
theorem bendSemitones_eq (lsb msb : BitVec 7) :
    bendSemitones lsb msb =
      ((Binary64.ofInt ((msb.toNat : Int) * 128 + lsb.toNat - 8192)).div (Binary64.ofInt 8192)).mul
        (Binary64.ofInt 12) := by
  have hvalue : (bendValue lsb msb : Int) = msb.toNat * 128 + lsb.toNat := by
    unfold bendValue
    push_cast
    ring
  rw [bendSemitones, hvalue]

/-- Settles O30: the bend is `bendSemitones_eq`; the tone is that of the new entry. -/
theorem pitchBendResult : Obligations.PitchBendResult := by
  intro k lsb msb s v x
  refine (onChannel_chanNo k s _).trans (congrArg _ ?_)
  rw [State.setChan_toneUpdate_eq, bendSemitones_eq]

/-- Settles O33: `State.modTick_eq`. -/
theorem modTickResult : Obligations.ModTickResult :=
  fun s => congrArg _ s.modTick_eq

end Sys2Proof.Machine

/-! # Property records and ignored input

A record's meaning is a function behind an operand gate: `natUpTo`, `boolValue` or `clockValue`, and for a per-channel
key the record's channel. What each gate answers is said once, for the values that pass and for those that do not;
behind the gate, each statement is the whole effect of the function. -/

namespace Sys2Proof.Machine

/-! ### What the operand gates answer -/

theorem natUpTo_int (top : Nat) (v : BitVec 32) :
    natUpTo top (.int v) = if 0 ≤ v.toInt ∧ v.toInt ≤ (top : Int) then some v.toInt.toNat else none := rfl

/-- Every int32 from 0 up passes the widest gate, with its unsigned value (R90, D24). -/
theorem natUpTo_maxInt32 (v : BitVec 32) :
    natUpTo maxInt32 (.int v) = if 0 ≤ v.toInt then some v.toNat else none := by
  have hlt := v.toInt_lt
  have hvalue := v.toInt_eq_toNat_cond
  rw [natUpTo_int]
  by_cases h : 0 ≤ v.toInt
  · rw [if_pos h, if_pos ⟨h, by unfold maxInt32; omega⟩]
    congr 1
    split at hvalue <;> omega
  · rw [if_neg h, if_neg fun hboth => h hboth.1]

/-- Every 16-bit value passes the envelope period's gate (D24). -/
theorem natUpTo_setWidth (p : BitVec 16) : natUpTo 65535 (.int (p.setWidth 32)) = some p.toNat := by
  have hlt : p.toNat < 2 ^ 16 := p.isLt
  have htoNat : (p.setWidth 32).toNat = p.toNat := BitVec.toNat_setWidth_of_le (by decide)
  have hvalue : (p.setWidth 32).toInt = p.toNat := by
    rw [BitVec.toInt_eq_toNat_of_lt (by omega), htoNat]
  rw [natUpTo_int, hvalue, if_pos (by omega), Int.toNat_natCast]

/-- An integer record outside the range, or a record of another type (R247, steps 2 and 4). -/
theorem natUpTo_illegal {top : Nat} {value : PropValue}
    (h : ∀ v, value = .int v → v.toInt < 0 ∨ (top : Int) < v.toInt) : natUpTo top value = none := by
  cases value with
  | int v =>
    rw [natUpTo_int, if_neg]
    have := h v rfl
    omega
  | real | bool => rfl

theorem boolValue_illegal {value : PropValue} (h : ∀ b, value ≠ .bool b) : boolValue value = none := by
  cases value with
  | bool b => exact absurd rfl (h b)
  | real | int => rfl

/-- A clock that is not finite and positive in Hz, or a record of another type (R281). -/
theorem clockValue_illegal {value : PropValue}
    (h : ∀ x, value = .real x → (x.mul (Binary64.ofInt 1000000)).isPositive = false) : clockValue value = none := by
  cases value with
  | real x => simp [clockValue, realValue, h x rfl]
  | int | bool => rfl

section
variable {α : Type} {s : State}

theorem onValue_illegal {o : Option α} (h : o = none) (f : α → State) : onValue o s f = .next s := by
  rw [h]; rfl

/-- A per-channel record needs both its value and its channel (R247, steps 2 to 4). -/
theorem onChannelValue_illegal {o : Option α} {chan : Byte} (h : 3 ≤ chan.toNat ∨ o = none) (f : Fin 3 → α → State) :
    onChannelValue o chan s f = .next s := by
  obtain h | rfl := h
  · cases o <;> simp [onChannelValue, propChannel_of_le h]
  · rfl

theorem onValue_ite {p : Prop} [Decidable p] (a : α) (s : State) (f : α → State) :
    onValue (if p then some a else none) s f = .next (if p then f a else s) := by
  split <;> rfl

theorem onChannelValue_ite {p : Prop} [Decidable p] (a : α) (k : Fin 3) (s : State) (f : Fin 3 → α → State) :
    onChannelValue (if p then some a else none) (chanByte k) s f = .next (if p then f k a else s) := by
  split
  · exact onChannelValue_chanByte a k s f
  · rfl

end

/-- Settles O11: the gate of each key answers none, whatever stands behind it. -/
theorem illegalRecordsIgnored : Obligations.IllegalRecordsIgnored := by
  intro chan value s
  refine ⟨fun h => ?_, fun h => ?_, fun h => ?_, fun h => ?_, fun h => ?_, fun h => ?_⟩
  · exact onValue_illegal (clockValue_illegal h) _
  · have hbool := boolValue_illegal h
    exact ⟨onValue_illegal hbool _, onValue_illegal hbool _, onValue_illegal hbool _, onValue_illegal hbool _,
      onValue_illegal hbool _⟩
  · exact onValue_illegal (natUpTo_illegal fun v hv => .inl (h v hv)) _
  · exact onValue_illegal (natUpTo_illegal h) _
  · have hgate : 3 ≤ chan.toNat ∨ natUpTo maxInt32 value = none :=
      h.imp_right fun hneg => natUpTo_illegal fun v hv => .inl (hneg v hv)
    exact ⟨onChannelValue_illegal hgate _, onChannelValue_illegal hgate _⟩
  · have hgate : 3 ≤ chan.toNat ∨ boolValue value = none := h.imp_right boolValue_illegal
    exact ⟨onChannelValue_illegal hgate _, onChannelValue_illegal hgate _, onChannelValue_illegal hgate _⟩

/-! ### Legal records -/

/-- Settles O34: the gate is `natUpTo_maxInt32`. -/
theorem noisePropertyResult : Obligations.NoisePropertyResult := by
  intro chan v s
  show onValue (natUpTo maxInt32 (.int v)) s _ = _
  rw [natUpTo_maxInt32, onValue_ite]
  rfl

/-- Settles O35: the gate is `natUpTo_setWidth`; a 16-bit register holds the value as it came. -/
theorem envelopePropertyResult : Obligations.EnvelopePropertyResult := by
  intro chan p s
  show onValue (natUpTo 65535 (.int (p.setWidth 32))) s _ = _
  rw [natUpTo_setWidth, onValue, BitVec.ofNat_toNat, BitVec.setWidth_eq]
  rfl

/-- Writing one bit of the shape leaves the other three (R252 to R255). -/
theorem getLsbD_setShapeBit (shape : BitVec 4) (b : Bool) {i j : Nat} (hi : i < 4) (hj : j < 4) :
    (setShapeBit shape i b).getLsbD j = if j = i then b else shape.getLsbD j := by
  revert shape b
  interval_cases i <;> interval_cases j <;> decide

/-- Settles O36: each key writes through `writeShapeBit`, at its own bit. -/
theorem shapeBitResults : Obligations.ShapeBitResults := by
  have hwrite : ∀ (i : Nat) (b : Bool) (s : State), i < 4 → ∃ shape : BitVec 4,
      (∀ j, j < 4 → shape.getLsbD j = if j = i then b else s.envShape.getLsbD j) ∧
      writeShapeBit i (.bool b) s = .next { s with envShape := shape, chipTrace := s.chipTrace ++ [.shape shape] } :=
    fun i b s hi => ⟨setShapeBit s.envShape i b, fun j hj => getLsbD_setShapeBit _ b hi hj, rfl⟩
  intro w hw chan b s
  simp only [List.mem_cons, List.not_mem_nil, or_false] at hw
  obtain rfl | rfl | rfl | rfl := hw
  · exact hwrite 0 b s (by decide)
  · exact hwrite 1 b s (by decide)
  · exact hwrite 2 b s (by decide)
  · exact hwrite 3 b s (by decide)

/-- Settles O37: both keys have the gate of `natUpTo_maxInt32` and send their command alone. -/
theorem overrideResults : Obligations.OverrideResults := by
  intro k v s
  constructor
  · show onChannelValue (natUpTo maxInt32 (.int v)) (chanByte k) s _ = _
    rw [natUpTo_maxInt32, onChannelValue_ite]
    rfl
  · show onChannelValue (natUpTo maxInt32 (.int v)) (chanByte k) s _ = _
    rw [natUpTo_maxInt32, onChannelValue_ite]
    rfl

/-- Settles O38: a Boolean on a live channel passes the gate, and the meaning behind it is the statement's. -/
theorem channelFlagResults : Obligations.ChannelFlagResults := fun k b s =>
  ⟨onChannelValue_chanByte b k s _, onChannelValue_chanByte b k s _, onChannelValue_chanByte b k s _⟩

/-! ### Input that no rule lists -/

/-- Settles O10: each of these rows changes nothing; an unmapped key decodes by `decodeProp_unmapped`. -/
theorem unlistedInputIgnored : Obligations.UnlistedInputIgnored := fun _ =>
  ⟨fun _ _ _ => rfl, fun _ _ => rfl, fun _ _ _ => rfl, fun _ _ => rfl,
    fun _ _ _ => ⟨rfl, fun h => congrArg Decoded.instr (decodeProp_unmapped h)⟩⟩

end Sys2Proof.Machine

/-! # One event as one step, and the render step -/

namespace Sys2Proof.Machine

theorem stepEvent_instr {e : Event} {i : Instr} (h : decode e.payload = .instr i) (s : State) :
    stepEvent e s = andThen (exec i s) fun t => .next t.advance := by
  simp only [stepEvent, h]

theorem stepEvent_malformed {e : Event} {why : DecodeError} (h : decode e.payload = .malformed why) (s : State) :
    stepEvent e s = .next s.advance := by
  simp only [stepEvent, h]

/-- Settles O5: the step is the event's, and the event's is `exec`. -/
theorem stepRunsDecodedEvent : Obligations.StepRunsDecodedEvent := by
  intro s e i he hdue hd
  exact (step_event he hdue).trans (stepEvent_instr hd s)

/-- Settles O6: the step is the event's, which is `EV_IDX + 1` alone. -/
theorem stepSkipsMalformedEvent : Obligations.StepSkipsMalformedEvent := by
  intro s e why he hdue hd
  exact (step_event he hdue).trans (stepEvent_malformed hd s)

theorem decodeTableWord_eq_some {nbits w : Nat} {i : Instr} (h : decodeTableWord nbits w = some i) :
    decode (tablePayload nbits w) = .instr i := by
  unfold decodeTableWord at h
  cases hd : decode (tablePayload nbits w) with
  | instr j =>
    simp only [hd, Option.some.injEq] at h
    rw [h]
  | malformed why => simp [hd] at h

/-- Settles O7: `withFetchWord` makes the word the payload of an event due at once. -/
theorem fetchWordRunsNext : Obligations.FetchWordRunsNext := by
  intro s nbits w i h
  exact stepRunsDecodedEvent (s.withFetchWord nbits w) { offset := 0, payload := tablePayload nbits w } i rfl
    (Nat.le_refl _) (decodeTableWord_eq_some h)

/-- Settles O41: `State.renderFrame_eq`, with the tones of `State.modTick_eq`. -/
theorem renderStepResult : Obligations.RenderStepResult := by
  intro s h
  refine (execRenderStep_of_lt h).trans (congrArg _ ?_)
  rw [State.renderFrame_eq, State.modTick_eq]

end Sys2Proof.Machine

/-! # The block transaction

`execBlock` and the idle step both check the host contract first, and then either keep the state (no frame, no event) or
run from the opened block. The run itself is followed by two relations. `s.Ran k m t` says what `k` frames and `m` events
do to the block's registers and to the count of `RENDER` commands. `s.Carries k m r` says that a part `r` of the
transaction completes, is `k + m` steps of the machine, and has that effect. It composes along `andThen`, so the loop of
R242 is followed once. -/

namespace Sys2Proof.Machine

/-! ### The host contract (R241) -/

theorem firstBeyond_eq_some {n : BitVec 32} {es : List Event} {j : Nat} {e : Event} (he : es[j]? = some e)
    (hbeyond : n.toNat ≤ e.offset.toNat) (hfirst : ∀ i d, i < j → es[i]? = some d → d.offset.toNat < n.toNat) :
    firstBeyond n es = some j := by
  obtain ⟨hj, rfl⟩ := List.getElem?_eq_some_iff.1 he
  refine List.findIdx?_eq_some_iff_getElem.2 ⟨hj, decide_eq_true hbeyond, fun i hi => ?_⟩
  have hlt := hfirst i _ hi (List.getElem?_eq_getElem (Nat.lt_trans hi hj))
  simpa using hlt

theorem firstBeyond_eq_none {n : BitVec 32} {es : List Event} (h : ∀ e ∈ es, e.offset.toNat < n.toNat) :
    firstBeyond n es = none := by
  simpa [firstBeyond] using h

section
variable {n : BitVec 32} {es : List Event} {s : State}

theorem execBlock_faulted (h : s.fault = true) : execBlock n es s = .fault (.hostContract s.faultIndex) := by
  simp [execBlock, h]

theorem execBlock_refused (hfault : s.fault = false) {j : Nat} (h : firstBeyond n es = some j) :
    execBlock n es s = .next (s.takeHostContract j) := by
  simp [execBlock, hfault, h]

theorem execBlock_empty (hfault : s.fault = false) : execBlock 0 [] s = .next s := by
  simp [execBlock, hfault, firstBeyond]

theorem emptyBlock_of_ne_zero (hn : n ≠ 0) : emptyBlock n es = false :=
  Bool.eq_false_iff.2 fun h => hn (emptyBlock_eq_true.1 h).1

/-- A block that keeps the host contract and has a frame is opened and run. -/
theorem execBlock_opened (hfault : s.fault = false) (hkept : ∀ e ∈ es, e.offset.toNat < n.toNat) (hn : n ≠ 0) :
    execBlock n es s = runEvents es (s.openBlock n es) := by
  simp [execBlock, hfault, firstBeyond_eq_none hkept, emptyBlock_of_ne_zero hn]

theorem stepIdle_faulted (h : s.fault = true) : stepIdle s = .fault (.hostContract s.faultIndex) := by
  simp [stepIdle, h]

theorem stepIdle_empty (hfault : s.fault = false) {rest : List HostCall} (hcalls : s.calls = .block 0 [] :: rest) :
    stepIdle s = .next { s with calls := rest } := by
  simp [stepIdle, hfault, hcalls, startCall, firstBeyond]

/-- The idle step opens a block that keeps the host contract and has a frame. -/
theorem stepIdle_opens (hfault : s.fault = false) {rest : List HostCall} (hcalls : s.calls = .block n es :: rest)
    (hkept : ∀ e ∈ es, e.offset.toNat < n.toNat) (hn : n ≠ 0) :
    stepIdle s = .next ({ s with calls := rest }.openBlock n es) := by
  simp [stepIdle, hfault, hcalls, startCall, firstBeyond_eq_none hkept, emptyBlock_of_ne_zero hn]

/-- The contract leaves a block of no frames no event (R249). -/
theorem eq_nil_of_no_frames (h : ∀ e ∈ es, e.offset.toNat < (0 : BitVec 32).toNat) : es = [] :=
  List.eq_nil_iff_forall_not_mem.2 fun e he => Nat.not_lt_zero _ (h e he)

end

/-- Settles O43: the refusal is at `firstBeyond`'s index; a state with `FAULT` set answers no next state. -/
theorem hostContractFault : Obligations.HostContractFault :=
  ⟨fun _ _ _ _ _ hfault he hbeyond hfirst => execBlock_refused hfault (firstBeyond_eq_some he hbeyond hfirst),
    fun _ _ _ hfault => execBlock_faulted hfault,
    fun _ hfault hidle => (step_idle hidle).trans (stepIdle_faulted hfault)⟩

/-- Settles O46: every offset is at or beyond 0, so the first event refuses the block. -/
theorem emptyBlockResult : Obligations.EmptyBlock := by
  intro s hfault
  refine ⟨execBlock_empty hfault, fun rest hidle hcalls => (step_idle hidle).trans (stepIdle_empty hfault hcalls),
    fun e es => ?_⟩
  have hfirst : firstBeyond 0 (e :: es) = some 0 :=
    firstBeyond_eq_some (e := e) rfl (Nat.zero_le _) fun i _ hi => absurd hi (Nat.not_lt_zero i)
  exact execBlock_refused hfault hfirst

/-! ### No event renders (R243, R244) -/

/-- How many frames the chip has been asked for (R243). -/
def State.renderCount (s : State) : Nat := s.chipTrace.countP ChipCmd.isRender

/-- The count reads the trace alone. -/
theorem State.renderCount_congr {s t : State} (h : t.chipTrace = s.chipTrace := by rfl) :
    t.renderCount = s.renderCount := by
  rw [State.renderCount, h, State.renderCount]

section
variable (s : State) (c : Fin 3)

@[simp] theorem State.renderCount_emit (cmd : ChipCmd) :
    (s.emit cmd).renderCount = s.renderCount + cmd.isRender.toNat := by
  cases h : cmd.isRender <;> simp [State.renderCount, h]

@[simp] theorem State.renderCount_setChan (x : Channel) : (s.setChan c x).renderCount = s.renderCount := rfl

@[simp] theorem State.renderCount_resetRegisters : s.resetRegisters.renderCount = s.renderCount := rfl

@[simp] theorem State.renderCount_pushTone : (s.pushTone c).renderCount = s.renderCount :=
  s.renderCount_emit _

@[simp] theorem State.renderCount_toneUpdate : (s.toneUpdate c).renderCount = s.renderCount := by
  unfold State.toneUpdate
  split <;> simp

@[simp] theorem State.renderCount_pushLevel : (s.pushLevel c).renderCount = s.renderCount := by
  unfold State.pushLevel
  split
  · exact s.renderCount_emit _
  · rfl

@[simp] theorem State.renderCount_pushChannelReset : (s.pushChannelReset c).renderCount = s.renderCount := by
  simp [State.pushChannelReset, ChipCmd.isRender]

/-- A `CFG` is no `RENDER`. -/
@[simp] theorem State.renderCount_reconfigure : s.reconfigure.renderCount = s.renderCount := by
  have hcfg : s.emitCfg.renderCount = s.renderCount :=
    (State.renderCount_congr (t := s.emitCfg)).trans (s.renderCount_emit (.cfg s.mode s.clockHz s.sampleRate s.cfgOk))
  simp [State.reconfigure, State.retune, hcfg]

@[simp] theorem State.renderCount_noteOff (n : BitVec 7) : (s.noteOff c n).renderCount = s.renderCount := by
  unfold State.noteOff
  split
  · exact s.renderCount_emit (.vol c 0)
  · rfl

@[simp] theorem State.renderCount_silence : (s.silence c).renderCount = s.renderCount := by
  unfold State.silence
  split
  · exact s.renderCount_emit (.vol c 0)
  · rfl

@[simp] theorem State.renderCount_noteOn (n v : BitVec 7) : (s.noteOn c n v).renderCount = s.renderCount := by
  rw [State.noteOn_eq]
  split
  · rfl
  · simp [State.startNote, ChipCmd.isRender]

@[simp] theorem State.renderCount_modTickChannel : (s.modTickChannel c).renderCount = s.renderCount := by
  unfold State.modTickChannel
  split <;> simp

/-- One frame asks the chip for one frame. -/
theorem State.renderCount_renderFrame : s.renderFrame.renderCount = s.renderCount + 1 := by
  have hrender : s.renderFrame.renderCount = s.modTick.emitRender.renderCount := State.renderCount_congr
  have hemit : s.modTick.emitRender.renderCount = s.modTick.renderCount + 1 :=
    s.modTick.renderCount_emit (.render s.modTick.removeDc s.modTick.samplePair.1 s.modTick.samplePair.2)
  rw [hrender, hemit]
  simp [State.modTick]

end

/-- `t` has asked the chip for as many frames as `s`. -/
def State.KeepsRenderCount (s t : State) : Prop := t.renderCount = s.renderCount

/-- Only the render step sends `RENDER`; no event does. -/
theorem exec_keepsRenderCount {i : Instr} (hi : i.isEvent = true) (s : State) :
    Ends s.KeepsRenderCount (exec i s) := by
  have hrefl : s.KeepsRenderCount s := rfl
  cases i with
  | noteOff c n v => exact ends_onChannel hrefl fun k => s.renderCount_noteOff k n
  | noteOnVel0 c n =>
    refine ends_onChannel hrefl fun k => ?_
    split
    · exact s.renderCount_noteOn k n 0
    · exact s.renderCount_noteOff k n
  | noteOn c n v => exact ends_onChannel hrefl fun k => s.renderCount_noteOn k n v
  | ccModWheel | pitchBend => exact ends_onChannel hrefl fun k => State.renderCount_toneUpdate _ k
  | ccMainVolume => exact ends_onChannel hrefl fun k => State.renderCount_pushLevel _ k
  | ccAllSoundOff | ccAllNotesOff => exact ends_onChannel hrefl fun k => s.renderCount_silence k
  | ccResetControllers c v =>
    refine ends_onChannel hrefl fun k => ?_
    split
    · simp [State.KeepsRenderCount]
    · exact hrefl
  | programChange c p =>
    exact ends_onChannel hrefl fun k => by simp [State.KeepsRenderCount, State.programChange, ChipCmd.isRender]
  | ccPan | ccGp1Noise | ccGp2EnvCoarse | ccGp3EnvFine | ccGp4EnvShape =>
    exact ends_onChannel hrefl fun _ => State.renderCount_emit _ _
  | propClock | propMode => exact ends_onValue hrefl fun _ => State.renderCount_reconfigure _
  | propNoisePeriod | propEnvPeriod | propEnvHold | propEnvAlternate | propEnvAttack | propEnvContinue =>
    exact ends_onValue hrefl fun _ => State.renderCount_emit _ _
  | propTonePeriod | propLevel | propEnvOn | propToneOn | propNoiseOn =>
    exact ends_onChannelValue hrefl fun _ _ => State.renderCount_emit _ _
  | systemReset => exact ends_next (by simp [State.KeepsRenderCount, ChipCmd.isRender])
  | polyAftertouch | ccOther | channelPressure | systemOther | propUnknown => exact ends_next hrefl
  | block | renderStep | modTick | construct => simp [Instr.isEvent] at hi

/-! ### One event (R244) -/

/-- An event writes nothing of the event frame but `EV_IDX`, and asks the chip for no frame. -/
theorem stepEvent_effect (e : Event) (s : State) :
    Ends (fun t => t.eventFrame = s.advance.eventFrame ∧ t.renderCount = s.renderCount) (stepEvent e s) := by
  cases hd : decode e.payload with
  | malformed why => rw [stepEvent_malformed hd]; exact ends_next ⟨rfl, rfl⟩
  | instr i =>
    have hi := decode_isEvent hd
    rw [stepEvent_instr hd]
    intro u hu
    obtain ⟨t, ht, hnext⟩ := andThen_eq_next.1 hu
    have hframe : t.eventFrame = s.eventFrame := exec_keepsEventFrame hi s t ht
    have hcount : t.renderCount = s.renderCount := exec_keepsRenderCount hi s t ht
    cases hnext
    exact ⟨congrArg (fun f => { f with evIdx := f.evIdx + 1 }) hframe, hcount⟩

/-- Every event completes, a malformed one too. -/
theorem stepEvent_total (e : Event) (s : State) : ∃ t, stepEvent e s = .next t := by
  cases hd : decode e.payload with
  | malformed why => exact ⟨_, stepEvent_malformed hd s⟩
  | instr i =>
    obtain ⟨t, ht⟩ := everyEventCompletes i s (decode_isEvent hd)
    exact ⟨t.advance, by rw [stepEvent_instr hd, ht, andThen_next]⟩

/-! ### What frames and events do to the block -/

/-- In a block of the right shape, `k` frames and `m` events lead from `s` to `t`. -/
structure State.Ran (k m : Nat) (s t : State) : Prop where
  shape : t.BlockShape
  fault : t.fault = s.fault
  frames : t.frames = s.frames
  events : t.events = s.events
  cursor : t.cursor = s.cursor + k
  evIdx : t.evIdx = s.evIdx + m
  sampleCtr : t.sampleCtr = s.sampleCtr + BitVec.ofNat 32 k
  renderCount : t.renderCount = s.renderCount + k

namespace State.Ran

theorem refl {s : State} (h : s.BlockShape) : s.Ran 0 0 s :=
  ⟨h, rfl, rfl, rfl, rfl, rfl, (BitVec.add_zero _).symm, rfl⟩

theorem trans {k m k' m' : Nat} {s t u : State} (hst : s.Ran k m t) (htu : t.Ran k' m' u) :
    s.Ran (k + k') (m + m') u where
  shape := htu.shape
  fault := htu.fault.trans hst.fault
  frames := htu.frames.trans hst.frames
  events := htu.events.trans hst.events
  cursor := by rw [htu.cursor, hst.cursor, Nat.add_assoc]
  evIdx := by rw [htu.evIdx, hst.evIdx, Nat.add_assoc]
  sampleCtr := by rw [htu.sampleCtr, hst.sampleCtr, BitVec.add_assoc, BitVec.ofNat_add]
  renderCount := by rw [htu.renderCount, hst.renderCount, Nat.add_assoc]

/-- One frame, where there is one left to write. -/
theorem renderFrame {s : State} (h : s.BlockShape) (hlt : s.cursor < s.frames.toNat) : s.Ran 1 0 s.renderFrame where
  shape := h.renderFrame hlt
  fault := by rw [State.renderFrame_eq]
  frames := by rw [State.renderFrame_eq]
  events := by rw [State.renderFrame_eq]
  cursor := by rw [State.renderFrame_eq]
  evIdx := by rw [State.renderFrame_eq]; rfl
  sampleCtr := by rw [State.renderFrame_eq]; rfl
  renderCount := s.renderCount_renderFrame

/-- The event at `EV_IDX`. -/
theorem event {s t : State} (h : s.BlockShape) {e : Event} (he : s.events[s.evIdx]? = some e)
    (ht : stepEvent e s = .next t) : s.Ran 0 1 t := by
  obtain ⟨hframe, hcount⟩ := stepEvent_effect e s t ht
  exact {
    shape := stepEvent_blockShape h he t ht
    fault := congrArg EventFrame.fault hframe
    frames := congrArg EventFrame.frames hframe
    events := congrArg EventFrame.events hframe
    cursor := congrArg EventFrame.cursor hframe
    evIdx := congrArg EventFrame.evIdx hframe
    sampleCtr := (congrArg EventFrame.sampleCtr hframe).trans (BitVec.add_zero _).symm
    renderCount := hcount }

end State.Ran

/-! ### The transaction in steps -/

theorem steps_one (s : State) : steps 1 s = step s := by
  show andThen (step s) .next = step s
  cases step s <;> rfl

theorem steps_add (a b : Nat) (s : State) : steps (a + b) s = andThen (steps a s) (steps b) := by
  induction a generalizing s with
  | zero => rw [Nat.zero_add]; rfl
  | succ a ih =>
    rw [Nat.add_right_comm]
    show andThen (step s) (steps (a + b)) = andThen (andThen (step s) (steps a)) (steps b)
    rw [andThen_assoc]
    exact congrArg _ (funext ih)

/-- The part `r` of the transaction from `s` completes, in `k` frames and `m` events, each one step of the machine. -/
def State.Carries (k m : Nat) (s : State) (r : Result) : Prop :=
  ∃ t, r = .next t ∧ steps (k + m) s = .next t ∧ s.Ran k m t

theorem State.Carries.andThen {k m k' m' l n : Nat} {s : State} {r : Result} {f : State → Result}
    (h : s.Carries k m r) (hf : ∀ t, s.Ran k m t → t.Carries k' m' (f t)) (hl : k + k' = l := by omega)
    (hn : m + m' = n := by omega) : s.Carries l n (andThen r f) := by
  subst hl hn
  obtain ⟨t, rfl, hsteps, hran⟩ := h
  obtain ⟨u, hu, hsteps', hran'⟩ := hf t hran
  refine ⟨u, hu, ?_, hran.trans hran'⟩
  rw [Nat.add_add_add_comm, steps_add, hsteps]
  exact hsteps'

/-- Up to where the loop of R242 renders: the next event's offset, or the block's end after the last event. -/
def State.renderTarget (s : State) : Nat := (s.events[s.evIdx]?).elim s.frames.toNat fun e => e.offset.toNat

theorem step_of_lt_renderTarget {s : State} (h : s.cursor < s.renderTarget) : step s = execRenderStep s := by
  unfold State.renderTarget at h
  cases he : s.events[s.evIdx]? with
  | some e => rw [he] at h; exact step_render he h
  | none => rw [he] at h; exact step_tail he h

theorem State.BlockShape.renderTarget_le {s : State} (h : s.BlockShape) : s.renderTarget ≤ s.frames.toNat := by
  unfold State.renderTarget
  cases he : s.events[s.evIdx]? with
  | some e => exact Nat.le_of_lt (h.offsets e (List.mem_of_getElem? he))
  | none => exact Nat.le_refl _

theorem execRenderStep_carries {s : State} (h : s.BlockShape) (hlt : s.cursor < s.renderTarget) :
    s.Carries 1 0 (execRenderStep s) := by
  have hframe : s.cursor < s.frames.toNat := Nat.lt_of_lt_of_le hlt h.renderTarget_le
  have hexec := execRenderStep_of_lt hframe
  exact ⟨s.renderFrame, hexec, by rw [steps_one, step_of_lt_renderTarget hlt, hexec], .renderFrame h hframe⟩

theorem renderFrames_carries {k : Nat} {s : State} (h : s.BlockShape) (hk : k ≤ s.renderTarget - s.cursor) :
    s.Carries k 0 (renderFrames k s) := by
  induction k generalizing s with
  | zero => exact ⟨s, rfl, rfl, .refl h⟩
  | succ k ih =>
    refine (execRenderStep_carries h (by omega)).andThen fun t ht => ih ht.shape ?_
    have htarget : t.renderTarget = s.renderTarget := by
      rw [State.renderTarget, ht.events, ht.evIdx, ht.frames]; rfl
    have hcursor := ht.cursor
    omega

theorem applyEvent_carries {s : State} (h : s.BlockShape) {e : Event} (he : s.events[s.evIdx]? = some e)
    (hdue : e.offset.toNat ≤ s.cursor) : s.Carries 0 1 (applyEvent e s) := by
  obtain ⟨t, ht⟩ := stepEvent_total e s
  exact ⟨t, by rw [applyEvent_eq_stepEvent, ht], by rw [steps_one, step_event he hdue, ht], .event h he ht⟩

/-- The loop of R242, from any point of a block: every frame and every event that is left. -/
theorem runEvents_carries {rest : List Event} {s : State} (h : s.BlockShape) (hrest : s.events.drop s.evIdx = rest) :
    s.Carries (s.frames.toNat - s.cursor) rest.length (runEvents rest s) := by
  induction rest generalizing s with
  | nil =>
    have htarget : s.renderTarget = s.frames.toNat := by
      rw [State.renderTarget, List.getElem?_eq_none (List.drop_eq_nil_iff.1 hrest)]; rfl
    exact renderFrames_carries h (by rw [htarget])
  | cons e rest ih =>
    have he : s.events[s.evIdx]? = some e := by
      rw [← List.head?_drop, hrest]; rfl
    have hoffset : e.offset.toNat < s.frames.toNat := h.offsets e (List.mem_of_getElem? he)
    have htarget : s.renderTarget = e.offset.toNat := by rw [State.renderTarget, he]; rfl
    have hrender : s.Carries (e.offset.toNat - s.cursor) 0 (renderTo e.offset.toNat s) :=
      renderFrames_carries h (by rw [htarget])
    have hevent : s.Carries (e.offset.toNat - s.cursor) 1 (andThen (renderTo e.offset.toNat s) (applyEvent e)) := by
      refine hrender.andThen fun t ht => applyEvent_carries ht.shape ?_ ?_
      · rw [ht.events, ht.evIdx]; exact he
      · have hcursor := ht.cursor
        omega
    have hcursor := h.cursor_le
    refine hevent.andThen (k' := s.frames.toNat - (s.cursor + (e.offset.toNat - s.cursor)))
      (fun t ht => ?_) (hn := Nat.add_comm 1 rest.length)
    rw [← ht.frames, ← ht.cursor]
    refine ih ht.shape ?_
    rw [ht.events, ht.evIdx, ← List.tail_drop, hrest, List.tail_cons]

/-- A block that keeps the host contract, from its opening to its end. -/
theorem openBlock_carries {n : BitVec 32} {es : List Event} (h : ∀ e ∈ es, e.offset.toNat < n.toNat) (s : State) :
    (s.openBlock n es).Carries n.toNat es.length (runEvents es (s.openBlock n es)) :=
  runEvents_carries (.openBlock (firstBeyond_eq_none h)) rfl

/-- Settles O44: `openBlock_carries` where there is a frame; every command of the trace's growth is counted. -/
theorem blockCompletes : Obligations.BlockCompletes := by
  intro n es s hfault hkept
  by_cases hn : n = 0
  · subst hn
    obtain rfl := eq_nil_of_no_frames hkept
    exact ⟨s, [], execBlock_empty hfault, hfault, by simp, by simp, rfl, fun _ => rfl, fun h => absurd rfl h⟩
  · obtain ⟨t, ht, -, hran⟩ := openBlock_carries hkept s
    have hexec : execBlock n es s = .next t := (execBlock_opened hfault hkept hn).trans ht
    obtain ⟨new, hnew⟩ := execBlock_appends n es s t hexec
    have hcount : new.countP ChipCmd.isRender = n.toNat := by
      have hrenders := hran.renderCount
      rw [State.renderCount, hnew, List.countP_append] at hrenders
      exact Nat.add_left_cancel hrenders
    have hframes : t.frames = n := hran.frames
    have hcursor : t.cursor = n.toNat := hran.cursor.trans (Nat.zero_add _)
    refine ⟨t, new, hexec, hran.fault.trans hfault, ?_, hnew, hcount, fun h => absurd h hn, fun _ =>
      ⟨hframes, hcursor, hran.events, hran.evIdx.trans (Nat.zero_add _), hframes ▸ hran.shape.lenL,
        hframes ▸ hran.shape.lenR, fun i hi => ⟨?_, ?_⟩⟩⟩
    · rw [hran.sampleCtr, BitVec.ofNat_toNat, BitVec.setWidth_eq]; rfl
    · exact (hran.shape.writtenL i (by rwa [hframes])).2 (by rwa [hcursor])
    · exact (hran.shape.writtenR i (by rwa [hframes])).2 (by rwa [hcursor])

/-- Settles O45: the opening is one idle step, and `openBlock_carries` counts the others. -/
theorem stepsCarryOutBlock : Obligations.StepsCarryOutBlock := by
  intro n es rest s hidle hfault hcalls hkept
  by_cases hn : n = 0
  · subst hn
    obtain rfl := eq_nil_of_no_frames hkept
    refine ⟨{ s with calls := rest }, execBlock_empty hfault, ?_, hidle⟩
    exact (steps_one s).trans ((step_idle hidle).trans (stepIdle_empty hfault hcalls))
  · obtain ⟨t, ht, hsteps, hran⟩ := openBlock_carries hkept { s with calls := rest }
    have hopen : step s = .next ({ s with calls := rest }.openBlock n es) :=
      (step_idle hidle).trans (stepIdle_opens hfault hcalls hkept hn)
    have hexec : execBlock n es { s with calls := rest } = .next t :=
      (execBlock_opened (s := { s with calls := rest }) hfault hkept hn).trans ht
    refine ⟨t, hexec, ?_, ?_⟩
    · rw [Nat.add_assoc, steps_add, steps_one, hopen, andThen_next, hsteps]
    · simp [State.isIdle, hran.frames, hran.cursor, hran.events, hran.evIdx]

/-! ### Events are on time (R245) -/

/-- In a sequence whose offsets do not decrease, a later event's offset is not below an earlier one's. -/
theorem Ordered.offset_le {es : List Event} (h : Ordered es) {i j : Nat} {d e : Event} (hij : i ≤ j)
    (hd : es[i]? = some d) (he : es[j]? = some e) : d.offset.toNat ≤ e.offset.toNat := by
  obtain ⟨hi, rfl⟩ := List.getElem?_eq_some_iff.1 hd
  obtain ⟨hj, rfl⟩ := List.getElem?_eq_some_iff.1 he
  obtain rfl | hlt := Nat.eq_or_lt_of_le hij
  · exact Nat.le_refl _
  · exact List.pairwise_iff_getElem.1 h i j hi hj hlt

theorem State.OnTime.openBlock (s : State) (n : BitVec 32) {es : List Event} (h : Ordered es) :
    (s.openBlock n es).OnTime where
  ordered := h
  ahead _ _ _ _ := Nat.zero_le _

/-- Before its target a frame passes no event. -/
theorem State.OnTime.renderFrame {s : State} (h : s.OnTime) (hlt : s.cursor < s.renderTarget) :
    s.renderFrame.OnTime := by
  rw [State.renderFrame_eq]
  refine ⟨h.ordered, fun j e hj he => ?_⟩
  have hdue : s.events[s.evIdx]? ≠ none := fun hnone => by
    have hlen : s.events.length ≤ j := Nat.le_trans (List.getElem?_eq_none_iff.1 hnone) hj
    rw [List.getElem?_eq_none hlen] at he
    cases he
  obtain ⟨d, hd⟩ := Option.ne_none_iff_exists'.1 hdue
  have htarget : s.renderTarget = d.offset.toNat := by rw [State.renderTarget, hd]; rfl
  exact Nat.le_trans (htarget ▸ hlt) (h.ordered.offset_le hj hd he)

theorem State.OnTime.event {s t : State} (h : s.OnTime) (ht : t.eventFrame = s.advance.eventFrame) : t.OnTime := by
  have hevents : t.events = s.events := congrArg EventFrame.events ht
  have hevIdx : t.evIdx = s.evIdx + 1 := congrArg EventFrame.evIdx ht
  have hcursor : t.cursor = s.cursor := congrArg EventFrame.cursor ht
  refine ⟨hevents ▸ h.ordered, fun j e hj he => ?_⟩
  rw [hcursor]
  exact h.ahead j e (by omega) (hevents ▸ he)

/-- All that a step within a block can be: a frame before the render target, or the event due at it. -/
theorem step_in_block {s : State} (h : s.isIdle = false) :
    (s.cursor < s.renderTarget ∧ step s = execRenderStep s) ∨
      ∃ e, s.events[s.evIdx]? = some e ∧ e.offset.toNat ≤ s.cursor ∧ step s = stepEvent e s := by
  by_cases hlt : s.cursor < s.renderTarget
  · exact .inl ⟨hlt, step_of_lt_renderTarget hlt⟩
  · cases he : s.events[s.evIdx]? with
    | some e =>
      have hdue : e.offset.toNat ≤ s.cursor := by simpa [State.renderTarget, he] using hlt
      exact .inr ⟨e, rfl, hdue, step_event he hdue⟩
    | none =>
      have hframes : s.frames.toNat ≤ s.cursor := by simpa [State.renderTarget, he] using hlt
      simp [State.isIdle, List.getElem?_eq_none_iff.1 he, hframes] at h

/-- Settles O48: a frame stays before the next event; an event is due and not behind the cursor, so at it. -/
theorem eventsOnTime : Obligations.EventsOnTime := by
  refine ⟨fun s n es h => .openBlock s n h, fun s t h hbusy ht => ?_⟩
  obtain ⟨hlt, hstep⟩ | ⟨e, he, hdue, hstep⟩ := step_in_block hbusy
  · have hframe : t = s.renderFrame := by
      rw [hstep, execRenderStep] at ht
      split at ht <;> cases ht
      rfl
    have hevIdx : s.renderFrame.evIdx = s.evIdx := by rw [State.renderFrame_eq]
    rw [hframe, hevIdx]
    exact ⟨h.renderFrame hlt, fun hnext => absurd hnext (Nat.ne_of_lt (Nat.lt_succ_self _))⟩
  · obtain ⟨hkeeps, -⟩ := stepEvent_effect e s t (hstep ▸ ht)
    exact ⟨h.event hkeeps, fun _ => ⟨e, he, Nat.le_antisymm (h.ahead _ e (Nat.le_refl _) he) hdue⟩⟩

end Sys2Proof.Machine

/-! # Reconfiguration

`PROP_CLOCK` and `PROP_MODE` write one register and then run the same operation, whose whole effect is said once. -/

namespace Sys2Proof.Machine

/-- Neither the `CFG` nor its answer enters a tone's period (R203), so the retune sees the state from before it. -/
theorem State.tonesWhere_emitCfg (s : State) (gate : Fin 3 → Bool) : s.emitCfg.tonesWhere gate = s.tonesWhere gate := rfl

/-- All that `Reconfigure` changes (R280, R283, R284): the answer's bit, the answer queue and its count, and the trace. -/
theorem State.reconfigure_eq (s : State) :
    s.reconfigure = { s with
      cfgInvalid := !s.cfgOk
      cfgAnswers := s.cfgAnswers.tail
      draws := s.draws + 1
      chipTrace := s.chipTrace ++ .cfg s.mode s.clockHz s.sampleRate s.cfgOk ::
        s.tonesWhere fun k => (s.chan k).note != -1 } := by
  rw [State.reconfigure, State.retune_eq, State.tonesWhere_emitCfg, State.emitCfg_chipTrace, List.append_assoc]
  rfl

/-- A legal clock passes the gate in Hz (R281, D21). -/
theorem clockValue_real {x : Binary64} (h : (x.mul (Binary64.ofInt 1000000)).isPositive = true) :
    clockValue (.real x) = some (x.mul (Binary64.ofInt 1000000)) := by
  simp only [clockValue, realValue, if_pos h]

theorem exec_propClock_real (chan : Byte) {x : Binary64} (s : State)
    (h : (x.mul (Binary64.ofInt 1000000)).isPositive = true) :
    exec (.propClock chan (.real x)) s = .next { s with clockHz := x.mul (Binary64.ofInt 1000000) }.reconfigure := by
  change execPropClock chan (.real x) s = _
  rw [execPropClock, clockValue_real h]
  rfl

theorem exec_propMode_bool (chan : Byte) (b : Bool) (s : State) :
    exec (.propMode chan (.bool b)) s = .next { s with mode := modeOf b }.reconfigure := rfl

/-- Settles O39: `State.reconfigure_eq` at the new clock. The answer drawn does not depend on the clock. -/
theorem clockPropertyResult : Obligations.ClockPropertyResult := by
  intro chan x s hz hpos
  rw [exec_propClock_real chan s hpos, State.reconfigure_eq]
  rfl

/-- Settles O40: `State.reconfigure_eq` at the new mode. Neither the answer drawn nor a tone's period depends on the mode. -/
theorem modePropertyResult : Obligations.ModePropertyResult := by
  intro chan b s mode
  rw [exec_propMode_bool, State.reconfigure_eq]
  rfl

end Sys2Proof.Machine

/-! # The idle machine (R313) -/

namespace Sys2Proof.Machine

/-- Between host calls the block "does nothing while idle" (R313). -/
theorem stepIdle_no_call {s : State} (hfault : s.fault = false) (hcalls : s.calls = []) : stepIdle s = .next s := by
  simp [stepIdle, hfault, hcalls]

/-- Settles O8: an idle step is `stepIdle`, which has no call to start. -/
theorem idleKeepsEverything : Obligations.IdleKeepsEverything :=
  fun _ hidle hfault hcalls => (step_idle hidle).trans (stepIdle_no_call hfault hcalls)

end Sys2Proof.Machine

/-! # Envelope restarts (R340)

An event that does not restart the envelope appends commands of which none is a `SHAPE`. `State.SendsNoShape` says so of two
states, and is built up along the meaning of each such event from the equations of the operations it runs. -/

namespace Sys2Proof.Machine

/-- The events by which the envelope generator can restart (R340). -/
def RestartsEnvelope (i : Instr) : Prop :=
  (∃ c n v, i = .noteOn c n v) ∨ (∃ c n, i = .noteOnVel0 c n) ∨ (∃ c v, i = .ccGp4EnvShape c v) ∨
  (∃ c v, i = .propEnvHold c v) ∨ (∃ c v, i = .propEnvAlternate c v) ∨ (∃ c v, i = .propEnvAttack c v) ∨
  (∃ c v, i = .propEnvContinue c v) ∨ i = .systemReset

/-- From `s` to `t` the trace grew by commands of which none is a `SHAPE`. -/
def State.SendsNoShape (s t : State) : Prop :=
  ∃ sent, t.chipTrace = s.chipTrace ++ sent ∧ ∀ shape, .shape shape ∉ sent

theorem State.tonesWhere_no_shape (s : State) (gate : Fin 3 → Bool) (shape : BitVec 4) :
    .shape shape ∉ s.tonesWhere gate := by
  simp [State.tonesWhere]

namespace State.SendsNoShape

variable {s t : State}

/-- A state with the same trace has sent nothing, whatever registers were written. -/
theorem of_chipTrace (h : t.chipTrace = s.chipTrace) : s.SendsNoShape t :=
  ⟨[], by simpa using h, by simp⟩

theorem refl (s : State) : s.SendsNoShape s := of_chipTrace rfl

/-- Sending more commands, none of them a `SHAPE`. -/
theorem append {u : State} {sent : List ChipCmd} (h : s.SendsNoShape t) (hu : u.chipTrace = t.chipTrace ++ sent)
    (hsent : ∀ shape, .shape shape ∉ sent) : s.SendsNoShape u := by
  obtain ⟨before, hbefore, hnone⟩ := h
  refine ⟨before ++ sent, by rw [hu, hbefore, List.append_assoc], fun shape hmem => ?_⟩
  exact (List.mem_append.1 hmem).elim (hnone shape) (hsent shape)

theorem emit {cmd : ChipCmd} (h : s.SendsNoShape t) (hcmd : ∀ shape, .shape shape ≠ cmd := by nofun) :
    s.SendsNoShape (t.emit cmd) :=
  h.append rfl fun shape hmem => hcmd shape (List.mem_singleton.1 hmem)

theorem pushTone {c : Fin 3} (h : s.SendsNoShape t) : s.SendsNoShape (t.pushTone c) := h.emit

theorem toneUpdate {c : Fin 3} (h : s.SendsNoShape t) : s.SendsNoShape (t.toneUpdate c) := by
  rw [State.toneUpdate_eq]
  exact h.append rfl fun _ => by split <;> simp

theorem pushLevel {c : Fin 3} (h : s.SendsNoShape t) : s.SendsNoShape (t.pushLevel c) := by
  rw [State.pushLevel_eq]
  exact h.append rfl fun _ => by split <;> simp

/-- A reconfiguration sends one `CFG` and tones (R280, R284). -/
theorem reconfigure (h : s.SendsNoShape t) : s.SendsNoShape t.reconfigure := by
  rw [State.reconfigure_eq]
  exact h.append rfl fun shape => List.not_mem_cons_of_ne_of_not_mem nofun (t.tonesWhere_no_shape _ shape)

/-- Ending a note sends `VOL` alone (R123, R128). -/
theorem emit_vol_setChan (s : State) (c : Fin 3) (x : Channel) : s.SendsNoShape ((s.emit (.vol c 0)).setChan c x) :=
  (refl s).append (sent := [.vol c 0]) rfl (by simp)

theorem noteOff (s : State) (c : Fin 3) (n : BitVec 7) : s.SendsNoShape (s.noteOff c n) := by
  unfold State.noteOff
  split
  · exact emit_vol_setChan s c _
  · exact refl s

theorem silence (s : State) (c : Fin 3) : s.SendsNoShape (s.silence c) := by
  unfold State.silence
  split
  · exact emit_vol_setChan s c _
  · exact refl s

end State.SendsNoShape

theorem execCcResetControllers_sendsNoShape (c : BitVec 4) (v : BitVec 7) (s : State) :
    Ends s.SendsNoShape (execCcResetControllers c v s) := by
  refine ends_onChannel (.refl s) fun k => ?_
  split
  · exact (State.SendsNoShape.refl s).pushTone.pushLevel
  · exact .refl s

/-- An event that is no restart sends no `SHAPE`. -/
theorem exec_sendsNoShape {i : Instr} (hi : i.isEvent = true) (hrestarts : ¬ RestartsEnvelope i) (s : State) :
    Ends s.SendsNoShape (exec i s) := by
  cases i with
  | noteOn | noteOnVel0 | ccGp4EnvShape | propEnvHold | propEnvAlternate | propEnvAttack | propEnvContinue | systemReset =>
    exact absurd (by simp [RestartsEnvelope]) hrestarts
  | noteOff c n v => exact ends_onChannel (.refl s) fun k => .noteOff s k n
  | ccModWheel | pitchBend => exact ends_onChannel (.refl s) fun _ => .toneUpdate (.of_chipTrace rfl)
  | ccMainVolume => exact ends_onChannel (.refl s) fun _ => .pushLevel (.of_chipTrace rfl)
  | ccAllSoundOff | ccAllNotesOff => exact ends_onChannel (.refl s) fun k => .silence s k
  | ccResetControllers c v => exact execCcResetControllers_sendsNoShape c v s
  | ccPan | ccGp1Noise | ccGp2EnvCoarse | ccGp3EnvFine =>
    exact ends_onChannel (.refl s) fun _ => .emit (.of_chipTrace rfl)
  | programChange => exact ends_onChannel (.refl s) fun _ => .emit (.emit (.emit (.of_chipTrace rfl)))
  | propClock | propMode => exact ends_onValue (.refl s) fun _ => .reconfigure (.of_chipTrace rfl)
  | propNoisePeriod | propEnvPeriod => exact ends_onValue (.refl s) fun _ => .emit (.of_chipTrace rfl)
  | propTonePeriod | propLevel | propEnvOn | propToneOn | propNoiseOn =>
    exact ends_onChannelValue (.refl s) fun _ _ => .emit (.of_chipTrace rfl)
  | polyAftertouch | ccOther | channelPressure | systemOther | propUnknown => exact ends_next (.refl s)
  | block | renderStep | modTick | construct => simp [Instr.isEvent] at hi

/-- Settles O59: the commands appended are determined by the two traces, and without a restart `exec_sendsNoShape` speaks of
them. -/
theorem envelopeRestarts : Obligations.EnvelopeRestarts := by
  intro i s t new shape hi ht hnew hmem
  change RestartsEnvelope i
  by_contra hrestarts
  obtain ⟨sent, hsent, hnone⟩ := exec_sendsNoShape hi hrestarts s t ht
  have hsame : sent = new := List.append_cancel_left (hsent.symm.trans hnew)
  exact hnone shape (hsame ▸ hmem)

end Sys2Proof.Machine

/-! # Construction (R330, R331) -/

namespace Sys2Proof.Machine

/-- With the capability, the next state is the constructed one; all it takes from `s` is the host's calls and the chip answers
(log entries 3, 16). -/
theorem exec_construct_capable (rate : Binary64) (dc : Bool) (p : Params) (s : State) :
    exec (.construct true rate dc p) s =
      .next (State.constructed rate dc p s.cfgOk s.calls s.cfgAnswers.tail s.renderAnswers (s.draws + 1)) := by
  change execConstruct true rate dc p s = _
  rw [execConstruct, if_pos rfl]

/-- Every channel is created zeroed (R46). -/
theorem State.chan_constructed (rate : Binary64) (dc : Bool) (p : Params) (ok : Bool) (calls : List HostCall)
    (cfgAnswers : List Bool) (renderAnswers : List (Binary32 × Binary32)) (draws : Nat) (k : Fin 3) :
    (State.constructed rate dc p ok calls cfgAnswers renderAnswers draws).chan k = Channel.powerOn := by
  fin_cases k <;> rfl

/-- Settles O49: each clause reads one field of the constructed state, whose clock is `powerOn_clock`. -/
theorem constructResult : Obligations.ConstructResult := by
  intro rate dc p s
  refine ⟨_, exec_construct_capable rate dc p s, powerOn_clock, rfl, rfl, rfl, rfl, rfl, rfl, rfl, rfl,
    fun k => State.chan_constructed (k := k) .., rfl, rfl, rfl, ?_, rfl, rfl, rfl, rfl, rfl, rfl, rfl⟩
  rw [← powerOn_clock]
  rfl

/-- Settles O50: without the capability, `execConstruct` takes its refusing branch in any state. -/
theorem constructNeedsCapability : Obligations.ConstructNeedsCapability := by
  intro rate dc p s
  change execConstruct false rate dc p s = _
  rw [execConstruct, if_neg Bool.false_ne_true]

end Sys2Proof.Machine

/-! # A render step needs a frame (log entry 14) -/

namespace Sys2Proof.Machine

/-- With the cursor at or past the end of the buffers, a render step takes its stopping branch; the counterpart of
`execRenderStep_of_lt`. -/
theorem execRenderStep_of_le {s : State} (h : s.frames.toNat ≤ s.cursor) : execRenderStep s = .fault .outsideBuffer := by
  rw [execRenderStep, if_neg h.not_gt]

/-- Settles O42: a render step is `execRenderStep`, which finds no frame to write. -/
theorem renderStepNeedsFrame : Obligations.RenderStepNeedsFrame :=
  fun s hend => (show exec .renderStep s = execRenderStep s from rfl).trans (execRenderStep_of_le hend)

end Sys2Proof.Machine
